-- ==== Sys2Proof/Word.lean ====
section
/-! DEFINITION. The widths of the block's words (10_state.md R11 to R18, 30_encoding.md R51, R55). -/

namespace Sys2Proof

/-- One byte: an opcode, an index or an argument of a packet (R51, R55). -/
abbrev Byte := BitVec 8

/-- A committed brightness level, 6 bits unsigned, 0..63 (R11, R31). -/
abbrev Level := BitVec 6

/-- A diode channel, 0..23 (R10). -/
abbrev Channel := Fin 24

/-- A slot of the pattern cycle, 0..62 (R17, R18): 6 bits that never hold 63 (R110). -/
abbrev Slot := Fin 63

/-- One bitmask of the output buffer: bit `c` belongs to channel `c` (R18). -/
abbrev Mask := BitVec 24

/-- One word of the pattern table (R20, R61). -/
abbrev Pattern := BitVec 64

/-- The 64-bit native command word `ncw` (R51). -/
abbrev NativeWord := BitVec 64

/-- A wire packet as one 32-bit number, the opcode in bits 31:24 (R55). -/
abbrev Packet := BitVec 32

/-- The 32-bit two's complement `level` operand of SET and FADE (R51). -/
abbrev LevelOperand := BitVec 32

end Sys2Proof
end

