-- ==== Sys2Proof/Syntax.lean ====
section
/-! DEFINITION. The operations of the block (30_encoding.md R50), what a port carries, and the text forms. -/

namespace Sys2Proof

/-- One constructor per row of spec/opcode_table.json, with the operands the row uses (R52, R56, R60, R70). -/
inductive Instr where
  | init                                                              -- NC 0x00, R81
  | get (index : Byte)                                                -- NC 0x01, R82
  | set (index : Byte) (level : LevelOperand)                         -- NC 0x02, R84
  | fade (index : Byte) (level : LevelOperand) (durationMs : BitVec 16) -- NC 0x03, R85
  | wset (channel velocity : Byte)                                    -- WP 0x80, R127
  | wsetall (velocity : Byte)                                         -- WP 0x81, R128
  | wget (channel : Byte)                                             -- WP 0x82, R129
  | wplay (animationId deciseconds followId : Byte)                   -- WP 0x83, R131
  | wstop                                                             -- WP 0x84, R132
  | wver                                                              -- WP 0xF0, R133
  | wboot                                                             -- WP 0xF1, R134
  | tick                                                              -- EV, R100
  | slot                                                              -- EV, R110
  | lookup (n : Level)                                                -- internal, R70
deriving DecidableEq, Repr

/-- What one arrival on a port carries. The formats arrive on separate inputs, so the port says the
format and a decoder never tells formats apart by content (R50, R22). -/
inductive PortWord where
  /-- The native command port `ncw` (R51). -/
  | native (w : NativeWord)
  /-- The wire packet port `pkt` (R55). -/
  | wire (p : Packet)
  /-- One pulse on `fade_tick` (R60). -/
  | fadeTick
  /-- One pulse on `slot_tick` (R60). -/
  | slotTick
  /-- The internal 6-bit address port of the pattern table (R70): no client drives it. -/
  | tableAddress (n : Level)
deriving DecidableEq, Repr

/-- A line of the text form (R63) or a pseudo-operation (R64), its operands already numbers. -/
inductive TextLine where
  | init
  | get (c : Nat)
  | set (c : Nat) (v : Int)
  | fade (c : Nat) (v : Int) (ms : Nat)
  | tick
  | slot
  | pkt (b0 b1 b2 b3 : Byte)
  | ticks (n : Nat)
  | slots (n : Nat)
  | cycle
deriving DecidableEq, Repr

end Sys2Proof
end

