-- ==== Sys2Proof/WellFormed.lean ====
section
/-! DEFINITION. What is well formed: instructions, and the words the ports carry (30_encoding.md R52, R56, R58, R63). -/

namespace Sys2Proof

/-- Every operand has exactly the width its field has (R51, R55, R70), and no operand value is an encoding
error: a bad index is a failure of the operation (R161), a level is clamped (R87), a velocity above 127 is
converted (R58). So every term of `Instr` is well formed, constructor by constructor. -/
def Instr.wellFormed : Instr → Bool
  | .init => true
  | .get _ => true
  | .set _ _ => true
  | .fade _ _ _ => true
  | .wset _ _ => true
  | .wsetall _ => true
  | .wget _ => true
  | .wplay _ _ _ => true
  | .wstop => true
  | .wver => true
  | .wboot => true
  | .tick => true
  | .slot => true
  | .lookup _ => true

/-- The native opcodes that are assigned: 0x00 to 0x03; 0x04..0xFF are reserved (R52). -/
def nativeOpcodeAssigned (op : Byte) : Bool := decide (op.toNat < 4)

/-- The seven wire opcodes of R56; every other byte is an invalid opcode (R58). -/
def wireOpcodeAssigned (op : Byte) : Bool :=
  op == 0x80#8 || op == 0x81#8 || op == 0x82#8 || op == 0x83#8 || op == 0x84#8 ||
    op == 0xF0#8 || op == 0xF1#8

/-- A port word is well formed when its opcode is assigned; only `op` is looked at (R52, R56). -/
def PortWord.wellFormed : PortWord → Bool
  | .native w => nativeOpcodeAssigned (w.extractLsb' 56 8)
  | .wire p => wireOpcodeAssigned (p.extractLsb' 24 8)
  | .fadeTick => true
  | .slotTick => true
  | .tableAddress _ => true

/-- The operands of a text line fit the fields they are encoded in (R51, R63). -/
def TextLine.wellFormed : TextLine → Bool
  | .init => true
  | .get c => decide (c < 256)
  | .set c v => decide (c < 256) && decide (-2147483648 ≤ v ∧ v ≤ 2147483647)
  | .fade c v ms =>
      decide (c < 256) && decide (-2147483648 ≤ v ∧ v ≤ 2147483647) && decide (ms < 65536)
  | .tick => true
  | .slot => true
  | .pkt _ _ _ _ => true
  | .ticks _ => true
  | .slots _ => true
  | .cycle => true

end Sys2Proof
end

