-- ==== Sys2Proof/Decode.lean ====
section
/-! DEFINITION. The decoder and the encoder (30_encoding.md R50 to R60), the text forms (R63, R64), and the host's
reading of a table word. Total on every word; a word that is no instruction is rejected by name. -/

namespace Sys2Proof

/-- Why a word is no instruction. -/
inductive DecodeError where
  /-- A native word with `op` 0x04..0xFF (R52, R162). -/
  | badNativeOpcode (op : Byte)
  /-- A wire packet whose opcode is none of the seven (R58, R125). -/
  | badWireOpcode (op : Byte)
  /-- A byte sequence that is not one whole wire packet of four bytes (R50, R55). -/
  | notFourBytes (n : Nat)
deriving DecidableEq, Repr

/-- What the decoder answers. -/
inductive Decoded where
  | ok (i : Instr)
  | reject (e : DecodeError)
deriving DecidableEq, Repr

/-! ### Fields -/

/-- `ncw[63:56]` (R51). -/
def ncwOp (w : NativeWord) : Byte := w.extractLsb' 56 8
/-- `ncw[55:48]` (R51). -/
def ncwIndex (w : NativeWord) : Byte := w.extractLsb' 48 8
/-- `ncw[47:16]` (R51). -/
def ncwLevel (w : NativeWord) : LevelOperand := w.extractLsb' 16 32
/-- `ncw[15:0]` (R51). -/
def ncwDurationMs (w : NativeWord) : BitVec 16 := w.extractLsb' 0 16

/-- `pkt[31:24]` (R55). -/
def pktOpcode (p : Packet) : Byte := p.extractLsb' 24 8
/-- `pkt[23:16]` (R55). -/
def pktArg1 (p : Packet) : Byte := p.extractLsb' 16 8
/-- `pkt[15:8]` (R55). -/
def pktArg2 (p : Packet) : Byte := p.extractLsb' 8 8
/-- `pkt[7:0]` (R55). -/
def pktArg3 (p : Packet) : Byte := p.extractLsb' 0 8

/-- The 64-bit word with these fields (R51). -/
def nativeWord (op index : Byte) (level : LevelOperand) (durationMs : BitVec 16) : NativeWord :=
  op ++ index ++ level ++ durationMs

/-- The packet with these bytes, the first byte on the wire in bits 31:24 (R33, R55). -/
def packetOfBytes (b0 b1 b2 b3 : Byte) : Packet := b0 ++ b1 ++ b2 ++ b3

/-! ### Decoding -/

/-- Format NC: `op` alone selects; fields an operation does not use are ignored (R52). -/
def decodeNative (w : NativeWord) : Decoded :=
  if ncwOp w = 0x00#8 then .ok .init
  else if ncwOp w = 0x01#8 then .ok (.get (ncwIndex w))
  else if ncwOp w = 0x02#8 then .ok (.set (ncwIndex w) (ncwLevel w))
  else if ncwOp w = 0x03#8 then .ok (.fade (ncwIndex w) (ncwLevel w) (ncwDurationMs w))
  else .reject (.badNativeOpcode (ncwOp w))

/-- Format WP: the opcode byte alone selects; unused arguments are ignored (R56, R124). -/
def decodeWire (p : Packet) : Decoded :=
  if pktOpcode p = 0x80#8 then .ok (.wset (pktArg1 p) (pktArg2 p))
  else if pktOpcode p = 0x81#8 then .ok (.wsetall (pktArg1 p))
  else if pktOpcode p = 0x82#8 then .ok (.wget (pktArg1 p))
  else if pktOpcode p = 0x83#8 then .ok (.wplay (pktArg1 p) (pktArg2 p) (pktArg3 p))
  else if pktOpcode p = 0x84#8 then .ok .wstop
  else if pktOpcode p = 0xF0#8 then .ok .wver
  else if pktOpcode p = 0xF1#8 then .ok .wboot
  else .reject (.badWireOpcode (pktOpcode p))

/-- The decoder: what the word on a port stands for. -/
def decode : PortWord → Decoded
  | .native w => decodeNative w
  | .wire p => decodeWire p
  | .fadeTick => .ok .tick
  | .slotTick => .ok .slot
  | .tableAddress n => .ok (.lookup n)

/-- The decoder on the bytes of the wire, first byte first (R33): exactly four are a packet. -/
def decodeWireBytes : List Byte → Decoded
  | [b0, b1, b2, b3] => decodeWire (packetOfBytes b0 b1 b2 b3)
  | bs => .reject (.notFourBytes bs.length)

/-! ### Encoding -/

/-- The word of an instruction, unused fields and arguments zero (R63). -/
def encode : Instr → PortWord
  | .init => .native (nativeWord 0x00#8 0#8 0#32 0#16)
  | .get index => .native (nativeWord 0x01#8 index 0#32 0#16)
  | .set index level => .native (nativeWord 0x02#8 index level 0#16)
  | .fade index level durationMs => .native (nativeWord 0x03#8 index level durationMs)
  | .wset channel velocity => .wire (packetOfBytes 0x80#8 channel velocity 0#8)
  | .wsetall velocity => .wire (packetOfBytes 0x81#8 velocity 0#8 0#8)
  | .wget channel => .wire (packetOfBytes 0x82#8 channel 0#8 0#8)
  | .wplay animationId deciseconds followId =>
      .wire (packetOfBytes 0x83#8 animationId deciseconds followId)
  | .wstop => .wire (packetOfBytes 0x84#8 0#8 0#8 0#8)
  | .wver => .wire (packetOfBytes 0xF0#8 0#8 0#8 0#8)
  | .wboot => .wire (packetOfBytes 0xF1#8 0#8 0#8 0#8)
  | .tick => .fadeTick
  | .slot => .slotTick
  | .lookup n => .tableAddress n

/-- The bits of a native word an operation looks at: `op` and the fields it uses; the others are ignored (R52). -/
def nativeBitsUsed : Instr → NativeWord
  | .get _ => 0xFFFF000000000000#64
  | .set _ _ => 0xFFFFFFFFFFFF0000#64
  | .fade _ _ _ => 0xFFFFFFFFFFFFFFFF#64
  | _ => 0xFF00000000000000#64

/-- The bits of a packet an operation looks at: the opcode and the arguments it uses (R56, R124). -/
def wireBitsUsed : Instr → Packet
  | .wset _ _ => 0xFFFFFF00#32
  | .wsetall _ => 0xFFFF0000#32
  | .wget _ => 0xFFFF0000#32
  | .wplay _ _ _ => 0xFFFFFFFF#32
  | _ => 0xFF000000#32

/-! ### The host's reading of an opcode-table word -/

/-- The port a table word belongs to, by its length: 64 bits are a native word, 32 a packet. The rows of
one byte share their words (TICK and SLOT are both the one bit `1`, LOOKUP is any 6-bit address), and the
spec keeps them apart by the port alone (R50, R60): with nothing but the word, 1 is read as TICK and every
other 6-bit number as a LOOKUP address (log entry 10). -/
def tablePortWord (nbits w : Nat) : Option PortWord :=
  if nbits = 64 then some (.native (BitVec.ofNat 64 w))
  else if nbits = 32 then some (.wire (BitVec.ofNat 32 w))
  else if nbits ≤ 8 then
    if w = 1 then some .fadeTick
    else if w < 64 then some (.tableAddress (BitVec.ofNat 6 w))
    else none
  else none

/-- The instruction the decoder reads from a word of the opcode table. -/
def decodeTableWord (nbits w : Nat) : Option Instr :=
  match tablePortWord nbits w with
  | none => none
  | some p =>
    match decode p with
    | .ok i => some i
    | .reject _ => none

/-! ### The text forms (R63) and the pseudo-operations (R64)

R63 gives the forms, the bases, and `;`. What else a line of characters may look like is the model's choice (DESIGN CHOICE,
log entry 27). -/

/-- The words a line stands for, pseudo-operations expanded (R63, R64). DESIGN CHOICE: none if an operand does not fit its
field (log entry 27). -/
def TextLine.assemble (l : TextLine) : Option (List PortWord) :=
  if l.wellFormed then
    match l with
    | .init => some [encode .init]
    | .get c => some [encode (.get (BitVec.ofNat 8 c))]
    | .set c v => some [encode (.set (BitVec.ofNat 8 c) (BitVec.ofInt 32 v))]
    | .fade c v ms =>
        some [encode (.fade (BitVec.ofNat 8 c) (BitVec.ofInt 32 v) (BitVec.ofNat 16 ms))]
    | .tick => some [encode .tick]
    | .slot => some [encode .slot]
    | .pkt b0 b1 b2 b3 => some [.wire (packetOfBytes b0 b1 b2 b3)]
    | .ticks n => some (List.replicate n (encode .tick))
    | .slots n => some (List.replicate n (encode .slot))
    | .cycle => some (List.replicate 63 (encode .slot))
  else none

/-- The value of a digit in base ten or sixteen. DESIGN CHOICE: hexadecimal letters in either case (log entry 27). -/
def digitValue (base : Nat) (ch : Char) : Option Nat :=
  let n := ch.toNat
  let v := if 48 ≤ n ∧ n ≤ 57 then some (n - 48)
    else if 65 ≤ n ∧ n ≤ 70 then some (n - 55)
    else if 97 ≤ n ∧ n ≤ 102 then some (n - 87)
    else none
  v.bind fun d => if d < base then some d else none

/-- Digits, most significant first, after the number `acc`. -/
def digitsValue (base acc : Nat) : List Char → Option Nat
  | [] => some acc
  | ch :: cs => (digitValue base ch).bind fun d => digitsValue base (base * acc + d) cs

/-- An operand without sign: decimal unless it begins `0x` (R63). DESIGN CHOICE: leading zeros stand, and `0X` is no
prefix (log entry 27). -/
def parseNat : List Char → Option Nat
  | [] => none
  | '0' :: 'x' :: c :: cs => digitsValue 16 0 (c :: cs)
  | cs => digitsValue 10 0 cs

/-- An operand that may be negative (R63, `SET 0, -1`). DESIGN CHOICE: the sign stands before a `0x` too (log
entry 27). -/
def parseInt : List Char → Option Int
  | '-' :: cs => (parseNat cs).map fun n => - (n : Int)
  | cs => (parseNat cs).map fun n => (n : Int)

/-- A byte of `PKT`: hexadecimal without prefix (R63). DESIGN CHOICE: one digit or two (log entry 27). -/
def parseByte (cs : List Char) : Option Byte :=
  if cs.length = 1 ∨ cs.length = 2 then (digitsValue 16 0 cs).map (BitVec.ofNat 8) else none

/-- The part of a line before its comment: `;` starts a comment (R63). -/
def dropComment : List Char → List Char
  | [] => []
  | ch :: cs => if ch = ';' then [] else ch :: dropComment cs

/-- The words of a line. DESIGN CHOICE: blanks and commas separate alike, in any number, where R63 writes a comma in
`SET c, v` and `FADE c, v, ms` and blanks in `PKT b0 b1 b2 b3` (log entry 27). -/
def lineWords (word : List Char) : List Char → List (List Char)
  | [] => if word.isEmpty then [] else [word]
  | ch :: cs =>
    if ch = ' ' ∨ ch = ',' then
      (if word.isEmpty then [] else [word]) ++ lineWords [] cs
    else lineWords (word ++ [ch]) cs

/-- One line of the text form (R63, R64). DESIGN CHOICE: the words in capitals only, and a line with nothing before its
comment is no operation (log entry 27). -/
def parseLine (cs : List Char) : Option TextLine :=
  match lineWords [] (dropComment cs) with
  | [['I', 'N', 'I', 'T']] => some .init
  | [['G', 'E', 'T'], c] => (parseNat c).map .get
  | [['S', 'E', 'T'], c, v] =>
      (parseNat c).bind fun c => (parseInt v).map fun v => .set c v
  | [['F', 'A', 'D', 'E'], c, v, ms] =>
      (parseNat c).bind fun c => (parseInt v).bind fun v => (parseNat ms).map fun ms => .fade c v ms
  | [['T', 'I', 'C', 'K']] => some .tick
  | [['S', 'L', 'O', 'T']] => some .slot
  | [['P', 'K', 'T'], b0, b1, b2, b3] =>
      (parseByte b0).bind fun b0 => (parseByte b1).bind fun b1 =>
        (parseByte b2).bind fun b2 => (parseByte b3).map fun b3 => .pkt b0 b1 b2 b3
  | [['T', 'I', 'C', 'K', 'S'], n] => (parseNat n).map .ticks
  | [['S', 'L', 'O', 'T', 'S'], n] => (parseNat n).map .slots
  | [['C', 'Y', 'C', 'L', 'E']] => some .cycle
  | _ => none

/-- The words that a line of text stands for. -/
def assembleLine (cs : List Char) : Option (List PortWord) :=
  (parseLine cs).bind TextLine.assemble

end Sys2Proof
end

