-- ==== Sys2Proof/Config.lean ====
section
/-! DEFINITION. The parameters the source fixes (00_scope.md R6), the parameters it leaves open (R7), and the values a
hardware reset leaves unspecified (10_state.md R27). An opaque constant has no body here: a claim holds for every value. -/

namespace Sys2Proof

/-- The fixed set of animations (45_animator_client.md R145 to R148). -/
inductive Animation where
  | sweep   -- Sweep/boot, R146
  | flip    -- Flip, R147
  | split   -- Test/split, R148
deriving DecidableEq, Repr, Inhabited

/-- What happens when an animation's duration has elapsed (R140, R143). -/
inductive FollowAction where
  | loop
  | stopLastFrame
  | stopOff
  | stopPreviousState
deriving DecidableEq, Repr, Inhabited

namespace Config

/-! ### Fixed by the source (R6) -/

/-- `PHI_INV`, "≈ 0.61803398875" in the source: taken as exactly that decimal (log entry 12). -/
def phiInv : Rat := 61803398875 / 100000000000

/-- `DEFAULT_LEVEL` = 0, the level GET returns on a failure (R7, D6). -/
def defaultLevel : Level := 0#6

/-! ### Open parameters (R7) -/

/-- `FADE_TICK_HZ` less one, so that the rate is any integer 1..65535 (R7, D1). -/
opaque fadeTickHzPred : Fin 65535

/-- `FADE_TICK_HZ` (R7, D1; log entry 6). -/
def fadeTickHz : Nat := fadeTickHzPred.val + 1

/-- `APPLY_ATOMIC` (R7, D11; log entry 7): whether a column write is one step as SLOT sees it (R38). -/
opaque applyAtomic : Bool

/-- `VERSION_MAJOR` (R7, D21). -/
opaque versionMajor : Byte
/-- `VERSION_MINOR` (R7, D21). -/
opaque versionMinor : Byte
/-- `VERSION_PATCH` (R7, D21). -/
opaque versionPatch : Byte

/-- Numerator and denominator of `MIN_DURATION`, each less one. -/
opaque minDurationParts : Nat × Nat
/-- Numerator, and denominator less one, of `MAX_DURATION - MIN_DURATION`. -/
opaque durationSpanParts : Nat × Nat

/-- `MIN_DURATION` in seconds, any positive rational (R7, D20; log entry 12). -/
def minDuration : Rat := ((minDurationParts.1 + 1 : Nat) : Rat) / ((minDurationParts.2 + 1 : Nat) : Rat)

/-- `MAX_DURATION` in seconds, any rational from `MIN_DURATION` on (R7, D20; log entry 12). -/
def maxDuration : Rat :=
  minDuration + ((durationSpanParts.1 : Nat) : Rat) / ((durationSpanParts.2 + 1 : Nat) : Rat)

/-- `EFFECT_TO_LEVEL` (R146, D29; log entry 13): the level operand an effect's real brightness becomes. -/
opaque effectToLevel : Rat → LevelOperand

/-- The animation whose id is 0: the source uses `id=0` as valid (D28; log entry 14). -/
opaque animationZero : Animation
/-- `ANIM_ID_*` (R151, D28) of the animations whose id is not 0. -/
opaque animationId : Animation → Byte
/-- `FOLLOW_ID_*` (R151, D28). -/
opaque followId : FollowAction → Byte

/-- The animation of an id byte: 0 is valid and 99 is not (D28); another byte is the id of the animation
that has it. -/
def animationOf (id : Byte) : Option Animation :=
  if id = 99#8 then none
  else if id = 0#8 then some animationZero
  else if id = animationId .sweep then some .sweep
  else if id = animationId .flip then some .flip
  else if id = animationId .split then some .split
  else none

/-- The follow action of an id byte (D28). -/
def followOf (id : Byte) : Option FollowAction :=
  if id = followId .loop then some .loop
  else if id = followId .stopLastFrame then some .stopLastFrame
  else if id = followId .stopOff then some .stopOff
  else if id = followId .stopPreviousState then some .stopPreviousState
  else none

/-! ### What the `n`-th hardware reset leaves behind (R27, R180; log entries 3 and 5) -/

opaque unspecifiedCur : Nat → Channel → Level
opaque unspecifiedSrc : Nat → Channel → Level
opaque unspecifiedTgt : Nat → Channel → Level
opaque unspecifiedDur : Nat → Channel → BitVec 32
opaque unspecifiedTick : Nat → Channel → BitVec 32
opaque unspecifiedMask : Nat → Slot → Mask
opaque unspecifiedStored : Nat → Channel → Level
opaque unspecifiedSlot : Nat → Slot
opaque unspecifiedQ : Nat → Mask
opaque unspecifiedChain : Nat → Mask
opaque unspecifiedAnimation : Nat → Animation
opaque unspecifiedDuration : Nat → Rat
opaque unspecifiedFollow : Nat → FollowAction
opaque unspecifiedProgress : Nat → Rat
/-- Whether the `n`-th reset clears the error log (R27 "kept or cleared, unspecified"). -/
opaque resetClearsLog : Nat → Bool

end Config
end Sys2Proof
end

