-- ==== Sys2Proof/Machine/State.lean ====
section
/-! DEFINITION. The machine's state as plain data (10_state.md), the reasons a step could stop, and the state after reset. -/

namespace Sys2Proof.Machine

/-- The block has no traps and no fatal conditions (60_exceptions.md, opening and R166 b): every failure is a
status and the run goes on. So no instruction faults, and there is no constructor: nothing raises one (safe). -/
inductive Fault where
deriving DecidableEq, Repr

/-- Why a step has no meaning in this model. -/
inductive Refusal where
  /-- Raised by an arm of `exec` whose instruction has no meaning yet. Every instruction has one, so no arm
  raises it (safe: a run that stops proves nothing about what follows). -/
  | notModelled (mnemonic : String)
deriving DecidableEq, Repr

/-- The failure statuses (60_exceptions.md R160). -/
inductive Status where
  | ok | badIndex | badOpcode | armFail | notInitialised | badAnimation | badFollowAction
deriving DecidableEq, Repr

/-- The commands that return a status (R160). A word with a reserved opcode is `reserved`. -/
inductive Command where
  | init | get | set | fade | wset | wsetall | wget | wplay | wstop | wver | wboot | reserved
deriving DecidableEq, Repr

/-- One entry of the error log: the failure and what R160 says is recorded with it. -/
inductive LogEntry where
  | badIndex (command : Command) (index : Byte)
  | badOpcode (op : Byte)
  | armFail
  | notInitialised (command : Command)
  | badAnimation (id : Byte)
  | badFollowAction (id : Byte)
deriving DecidableEq, Repr

/-- What an operation returned to the agent that issued it (R160; GET's level R82; LOOKUP's word R70). -/
inductive Return where
  | status (command : Command) (st : Status)
  | level (st : Status) (level : Level)
  | pattern (w : Pattern)
deriving DecidableEq, Repr

/-- One presented frame, `emit Frame(slot, mask)` (43_shift_out.md R110). -/
structure Frame where
  slot : Slot
  mask : Mask
deriving DecidableEq, Repr

/-- One event on the serial lines (R112): a bit on `ser` with its `sck` pulse, or the `rck` latch pulse. -/
inductive LinePulse where
  | bit (b : Bool)
  | latch
deriving DecidableEq, Repr

/-- A diode record (R10 to R15). -/
structure Diode where
  cur : Level
  src : Level
  tgt : Level
  dur : BitVec 32
  tick : BitVec 32
deriving DecidableEq, Repr, Inhabited

/-- The record INIT writes (41_engine_commands.md R81). -/
def Diode.zero : Diode := ⟨0#6, 0#6, 0#6, 0#32, 0#32⟩

/-- The animator's five fields (45_animator_client.md R140, R144). `playing` is the block's input
`anim_playing` (R22). -/
structure Animator where
  current : Animation
  duration : Rat
  follow : FollowAction
  progress : Rat
  playing : Bool
deriving DecidableEq, Repr

/-- A step the animator has still to take for an `update` in progress: each SET of an effect's frame is a step of
its own (R142, R145; log entry 18). -/
inductive AnimStep where
  /-- Issue `SET c, level` (R145). -/
  | set (c : Channel) (level : LevelOperand)
  /-- The end of an `update` that reached progress 1: resolve the follow action (R142). -/
  | finish
deriving DecidableEq, Repr

/-- A packet 0x81 in progress (44_wire_commands.md R128): the channel its next step sets, the converted level,
`anim_playing` as sampled once at its start, and the client that waits for it (R41 (2), log entry 8). -/
structure SetAll where
  next : Channel
  level : Nat
  suppressed : Bool
  client : Nat
deriving DecidableEq, Repr

/-- A pulse that falls inside a column write (20_memory.md R38, R39). -/
inductive Strobe where
  | slot
  | fadeTick
deriving DecidableEq, Repr

/-- One arrival from outside (R22): a word on a port with the client that issued it, the reset input, a new level of
the pin `arm_ok`, or the application task's call `update(dt)` (R149). The block never looks at the client (R170): it is
there so that the steps of one client keep their order (R41 (2), log entry 8), and means nothing on a pulse. -/
inductive Input where
  | word (client : Nat) (p : PortWord)
  | rst
  | armOk (b : Bool)
  | update (dt : Rat)
deriving DecidableEq, Repr

/-- Which agent takes the next step (R41 (4), R169). -/
inductive Turn where
  /-- The tick handler, for a tick held during a critical section. -/
  | heldTick
  /-- The `k`-th packet 0x81 in progress. -/
  | packet (k : Nat)
  /-- The animator, with the SETs of its effect. -/
  | animator
  /-- Whoever issued the next arrival. -/
  | input
deriving DecidableEq, Repr

/-- The machine. Fields from `returns` on are, in order: what the block has emitted, the operations in
progress, the environment's side, and the model's own counter (log entries 3, 8, 9, 16, 18). -/
structure State where
  /-- `inited` (R17). -/
  inited : Bool
  /-- `armed` (R17). -/
  armed : Bool
  /-- `tick_armed` (R17). -/
  tickArmed : Bool
  /-- `slot` (R17). -/
  slot : Slot
  /-- `q`, the latched output (R17). -/
  q : Mask
  /-- The serial stage of the external shift-register chain (R112, R24 c). -/
  chain : Mask
  /-- The diode file `D` (R10). -/
  diodes : Vector Diode 24
  /-- The output buffer `M` (R18). -/
  masks : Vector Mask 63
  /-- The snapshot `stored` (R21). -/
  stored : Vector Level 24
  /-- The pending ticks (R24 a). -/
  pendingTicks : Nat
  /-- The error log (R23). -/
  errorLog : List LogEntry
  /-- The animator, the block's client (R140). -/
  animator : Animator
  /-- The statuses and levels returned, oldest first (R23). -/
  returns : List Return
  /-- The response stream, oldest first (R30, R59). -/
  responses : List Packet
  /-- The frames presented, oldest first (R110). -/
  frames : List Frame
  /-- The serial line, oldest first (R112). -/
  line : List LinePulse
  /-- The packets 0x81 in progress, oldest first (R128). -/
  packets : List SetAll
  /-- The animator's steps not yet taken, in order (R145). -/
  animWork : List AnimStep
  /-- The input pin `arm_ok` (R22). -/
  armOk : Bool
  /-- What has arrived and is not yet taken, in order (R30, R41). -/
  inputs : List Input
  /-- The client whose word was taken last: the environment's bookkeeping, read only for R41 (2). -/
  issuer : Nat
  /-- Who moves next, where the spec fixes no order (R41 (4)). -/
  turns : List Turn
  /-- The pulses that fall in the successive gaps of the column writes (R38). -/
  between : List (List Strobe)
  /-- How many hardware resets have happened: the free values of a reset are applied to it. -/
  boots : Nat
deriving DecidableEq, Repr

/-- The animator before the first `play`: Idle (R140, D38); its other fields by log entry 2. -/
def Animator.reset : Animator :=
  { current := .sweep, duration := 0, follow := .loop, progress := 0, playing := false }

/-- The machine right after reset (R27, R180): `inited`, `armed`, `tick_armed` 0 and no pending tick, as the
spec says; the values it leaves unspecified by log entries 1, 2, 5 and 11, and `issuer` by log entry 8. -/
def State.reset : State :=
  { inited := false
    armed := false
    tickArmed := false
    slot := 0
    q := 0#24
    chain := 0#24
    diodes := Vector.replicate 24 Diode.zero
    masks := Vector.replicate 63 0#24
    stored := Vector.replicate 24 0#6
    pendingTicks := 0
    errorLog := []
    animator := Animator.reset
    returns := []
    responses := []
    frames := []
    line := []
    packets := []
    animWork := []
    armOk := true
    inputs := []
    issuer := 0
    turns := []
    between := []
    boots := 0 }

end Sys2Proof.Machine
end

