-- ==== Sys2Proof/Machine/Operands.lean ====
section
/-! DEFINITION. Every operand form and conversion: clamp, the channel check, velocities, durations, the ramp of a fade,
and the bits of a frame (00_scope.md R8, 30_encoding.md R53, R57). -/

namespace Sys2Proof.Machine

/-- `clamp(v, 0, 63)` (R8, R87). -/
def clampLevel (v : Int) : Level :=
  if v < 0 then 0#6 else if 63 < v then 63#6 else BitVec.ofInt 6 v

/-- The `level` operand as `signed_32` reads it (R51, R53). -/
def signedLevel (level : LevelOperand) : Int := level.toInt

/-- The channel an 8-bit index names, if it is one of 0..23: no bit is dropped, so 24..255 name none
(R53, R161). -/
def channelOf (index : Byte) : Option Channel :=
  if h : index.toNat < 24 then some ⟨index.toNat, h⟩ else none

/-- `duration_ms * FADE_TICK_HZ / 1000`, the product first, then one truncating division (R86). At most
4 294 836, so it fits the 32-bit field. -/
def fadeTicks (hz : Nat) (durationMs : BitVec 16) : BitVec 32 :=
  BitVec.ofNat 32 (durationMs.toNat * hz / 1000)

/-- Velocity to level, `tdiv(vel * 63, 127)`, not yet clamped: 0..126 (R121). -/
def velToLevel (vel : Byte) : Nat := vel.toNat * 63 / 127

/-- Level to velocity, `tdiv(level * 127, 63)`: 0..127 fits a byte (R122). -/
def levelToVel (level : Level) : Byte := BitVec.ofNat 8 (level.toNat * 127 / 63)

/-- The duration of packet 0x83: deciseconds (R57, R151). -/
def deciseconds (b : Byte) : Rat := (b.toNat : Rat) / 10

/-- `clamp(duration, MIN_DURATION, MAX_DURATION)` (R141). -/
def clampDuration (x : Rat) : Rat :=
  if x < Config.minDuration then Config.minDuration
  else if Config.maxDuration < x then Config.maxDuration
  else x

/-- The level a fade from `src` to `tgt` over `dur` ticks has reached after `n` of them:
`src + tdiv((tgt - src) * n, dur)`, signed arithmetic, the product first, one division truncating toward zero
(R100, R102). -/
def rampAt (src tgt : Level) (dur n : Nat) : Int :=
  (src.toNat : Int) + Int.tdiv (((tgt.toNat : Int) - (src.toNat : Int)) * (n : Int)) (dur : Int)

/-- The level a TICK computes for a diode, with `tick + 1` ticks elapsed (R100): in 0..63 by R101 (b), so the 6 bits
lose nothing. -/
def Diode.rampLevel (d : Diode) : Level :=
  BitVec.ofInt 6 (rampAt d.src d.tgt d.dur.toNat (d.tick.toNat + 1))

/-- The bits of a frame in the order they are sent: bit 23 first, bit 0 last (R62, R112, D9). -/
def frameBits (m : Mask) : List Bool := (List.finRange 24).map fun i => m.getLsbD (23 - i.val)

/-- One pulse of the shift clock: every stage moves one place away from the block, and the new bit enters at the
near end (R62, R112). -/
def shiftIn (r : Mask) (b : Bool) : Mask := (r <<< 1) ||| (BitVec.ofBool b).setWidth 24

/-- The serial stage after the 24 shift-clock pulses of a frame (R112). -/
def shiftFrame (r m : Mask) : Mask := (frameBits m).foldl shiftIn r

/-- A mask with one bit written and the other 23 kept: `M[j][c] <- b` (R8). -/
def writeMaskBit (m : Mask) (c : Channel) (b : Bool) : Mask :=
  if b then m ||| (1#24 <<< c.val) else m &&& ~~~(1#24 <<< c.val)

/-- `frac(x) = x - floor(x)` (R8). -/
def frac (x : Rat) : Rat := x - (x.floor : Rat)

end Sys2Proof.Machine
end

