-- ==== Sys2Proof/Machine/Flags.lean ====
section
/-! DEFINITION. The block's only flags: the predicates over a diode record and the status codes (10_state.md R16, R26). -/

namespace Sys2Proof.Machine

/-- `idle(c) := (D[c].tick == D[c].dur)` (R16). -/
def Diode.idle (d : Diode) : Bool := d.tick == d.dur

/-- `active(c) := not idle(c)` (R16). -/
def Diode.active (d : Diode) : Bool := !d.idle

/-- The 3-bit code of a status (60_exceptions.md R160); 7 is the code of none. -/
def Status.code : Status → BitVec 3
  | .ok => 0#3
  | .badIndex => 1#3
  | .badOpcode => 2#3
  | .armFail => 3#3
  | .notInitialised => 4#3
  | .badAnimation => 5#3
  | .badFollowAction => 6#3

/-- The status of a failure (R160). -/
def LogEntry.status : LogEntry → Status
  | .badIndex _ _ => .badIndex
  | .badOpcode _ => .badOpcode
  | .armFail => .armFail
  | .notInitialised _ => .notInitialised
  | .badAnimation _ => .badAnimation
  | .badFollowAction _ => .badFollowAction

end Sys2Proof.Machine
end

