-- ==== Sys2Proof/Machine/Lut.lean ====
section
/-! DEFINITION. The Brightness Pattern Table (40_lut.md): its 64 words, and LOOKUP as an operation. -/

namespace Sys2Proof.Machine

/-- `P[0..63]`, word by word (R73). -/
def lutTable : Vector Pattern 64 :=
  #v[0x0000000000000000#64, 0x0000000000000000#64, 0x0000000000000000#64, 0x0000000000000001#64,
     0x0000000000000001#64, 0x0000000000000001#64, 0x0000000100000001#64, 0x0000000100000001#64,
     0x0000040000200001#64, 0x0000040000200001#64, 0x0001000100010001#64, 0x0008004002001001#64,
     0x0008004002001001#64, 0x0020040100200401#64, 0x0040201008040201#64, 0x0040201008040201#64] ++
  #v[0x0101010101010101#64, 0x0102040810204081#64, 0x0208104102081041#64, 0x0208104102081041#64,
     0x0410410420820821#64, 0x0421042104210421#64, 0x0842108421084211#64, 0x0844221108442211#64,
     0x0888444422221111#64, 0x1111111111111111#64, 0x1111222244448889#64, 0x1122448911224489#64,
     0x1224892244912449#64, 0x1249124912491249#64, 0x1249249249249249#64, 0x2492492524924925#64] ++
  #v[0x249492524A492925#64, 0x2525252525252525#64, 0x2529494A529294A5#64, 0x294A5295294A5295#64,
     0x2952A52A54A54A95#64, 0x2A552A552A552A55#64, 0x2A9552AA554AA955#64, 0x2AAA55552AAA5555#64,
     0x5555555555555555#64, 0x55555555AAAAAAAB#64, 0x5555AAAB5555AAAB#64, 0x556AAD55AAB556AB#64,
     0x55AB55AB55AB55AB#64, 0x56B5AD6B56B5AD6B#64, 0x5AD6B6B5AD6D6B5B#64, 0x5B5B5B5B5B5B5B5B#64] ++
  #v[0x5B6DB6DB5B6DB6DB#64, 0x6DB6DB6DB6DB6DB7#64, 0x6DB76DB76DB76DB7#64, 0x6EDDBB776EDDBB77#64,
     0x6EEEDDDDBBBB7777#64, 0x7777777777777777#64, 0x77BBDDEF77BBDDEF#64, 0x77BDEF7BDEF7BDEF#64,
     0x7BDF7BDF7BDF7BDF#64, 0x7DF7EFBF7DF7EFBF#64, 0x7EFDFBF7EFDFBF7F#64, 0x7FBFDFEFF7FBFDFF#64,
     0x7FDFFBFF7FDFFBFF#64, 0x7FFF7FFF7FFF7FFF#64, 0x7FFFFBFFFFDFFFFF#64, 0x7FFFFFFFFFFFFFFF#64]

/-- `lookup(n) = P[n]`, total on the 64 levels: the address has 6 bits, so no clamp is needed (R70, R31). -/
def lookup (n : Level) : Pattern := lutTable[n.toNat]'n.isLt

/-- LOOKUP: the word at the address is the result; no state of the block is written (R70). The result is
reported to whoever drove the address port (log entry 16). -/
def execLookup (n : Level) (s : State) : Host.Outcome State Fault Refusal :=
  .next { s with returns := s.returns ++ [.pattern (lookup n)] }

end Sys2Proof.Machine
end

