-- ==== Sys2Proof/Machine/Ops.lean ====
section
/-! DEFINITION. The named operations over the state: statuses and the log, the diode file, the output buffer, Apply, one
SLOT, one lane of TICK, the core of SET, and the hardware reset. -/

namespace Sys2Proof.Machine

/-! ### Statuses, the log, responses (R23, R59, R160, R166) -/

/-- Hand a result to the issuer of an operation (R23). -/
def State.ret (s : State) (r : Return) : State := { s with returns := s.returns ++ [r] }

/-- `log(code)`: append one entry to the error log (R8, R23). -/
def State.log (s : State) (e : LogEntry) : State := { s with errorLog := s.errorLog ++ [e] }

/-- `respond(b0, b1, b2, b3)` (R8, R59). -/
def State.respond (s : State) (b0 b1 b2 b3 : Byte) : State :=
  { s with responses := s.responses ++ [packetOfBytes b0 b1 b2 b3] }

/-- `raise <Failure>`: what stands here in place of taking an exception. The command ends with the status of the
failure and one log entry; nothing is saved and control goes nowhere (R8, R166). -/
def State.raise (s : State) (command : Command) (e : LogEntry) : State :=
  (s.log e).ret (.status command e.status)

/-- End a command with status OK, which is not logged (R160). -/
def State.succeed (s : State) (command : Command) : State := s.ret (.status command .ok)

/-- End a command whose checks and effect gave `r`: OK with the new state, or the failure raised in the state
the command began in (R83, R161: a failed check leaves the state unchanged). -/
def State.conclude (s : State) (command : Command) (r : Except LogEntry State) : State :=
  match r with
  | .ok s' => s'.succeed command
  | .error e => s.raise command e

/-- The step that takes a word with a reserved opcode: BadOpcode, and nothing else changes (R125, R162). -/
def State.rejectWord (s : State) (e : DecodeError) : State :=
  match e with
  | .badNativeOpcode op => s.raise .reserved (.badOpcode op)
  | .badWireOpcode op => s.raise .reserved (.badOpcode op)
  | .notFourBytes n => s.raise .reserved (.badOpcode (BitVec.ofNat 8 n))

/-! ### The storage spaces (20_memory.md R30, R32) -/

/-- `D[c]` (R8). -/
def State.diode (s : State) (c : Channel) : Diode := s.diodes[c.val]

/-- Write the record of one channel and no other (R10). -/
def State.setDiode (s : State) (c : Channel) (d : Diode) : State :=
  { s with diodes := s.diodes.set c.val d }

/-- `D[c].cur <- v` (R8). -/
def State.setCur (s : State) (c : Channel) (v : Level) : State :=
  s.setDiode c { s.diode c with cur := v }

/-- `D[c].tick <- t` (R8). -/
def State.setTick (s : State) (c : Channel) (t : BitVec 32) : State :=
  s.setDiode c { s.diode c with tick := t }

/-- `stored[c] <- v` (R21). -/
def State.setStored (s : State) (c : Channel) (v : Level) : State :=
  { s with stored := s.stored.set c.val v }

/-- `BufRead(j)`: the mask of slot `j`, whole (R8, R32). -/
def State.bufRead (s : State) (j : Slot) : Mask := s.masks[j.val]

/-- `BufWriteBit(j, c, b)`: one bit of one mask (R8). -/
def State.bufWriteBit (s : State) (j : Slot) (c : Channel) (b : Bool) : State :=
  { s with masks := s.masks.set j.val (writeMaskBit (s.bufRead j) c b) }

/-- The vector whose element `i` is `f i`. -/
def tabulate (n : Nat) (f : Fin n → α) : Vector α n := ⟨⟨(List.finRange n).map f⟩, by simp⟩

/-- The buffer with column `c` replaced by bits 0..62 of a pattern word; bit 63 goes nowhere (R80, R34 b). -/
def writeColumn (m : Vector Mask 63) (c : Channel) (w : Pattern) : Vector Mask 63 :=
  tabulate 63 fun j => writeMaskBit m[j.val] c (w.getLsbD j.val)

/-! ### One slot of the output driver (43_shift_out.md R110, R112, R114) -/

/-- SLOT's effect: while armed, send the mask of this slot down the serial line, latch it, and move on to the next
slot (62 wraps to 0); while not armed, nothing. -/
def State.slotStep (s : State) : State :=
  if s.armed then
    let m := s.bufRead s.slot
    { s with
      frames := s.frames ++ [⟨s.slot, m⟩]
      line := s.line ++ (frameBits m).map LinePulse.bit ++ [LinePulse.latch]
      chain := shiftFrame s.chain m
      q := shiftFrame s.chain m
      slot := s.slot + 1 }
  else s

/-! ### Apply (41_engine_commands.md R80, 20_memory.md R38, R39) -/

/-- A pulse that falls inside a critical section: SLOT is never blocked (R115), a fade tick is held (R39). -/
def State.strobe (s : State) : Strobe → State
  | .slot => s.slotStep
  | .fadeTick => { s with pendingTicks := s.pendingTicks + 1 }

/-- The pulses of the next gap of a column write (R38). -/
def State.nextGap (s : State) : State :=
  match s.between with
  | [] => s
  | g :: gs => g.foldl State.strobe { s with between := gs }

/-- A whole column of the buffer written at once (R80, R32). -/
def State.setColumn (s : State) (c : Channel) (w : Pattern) : State :=
  { s with masks := writeColumn s.masks c w }

/-- `APPLY_ATOMIC` = true: the whole column and `cur` in one indivisible step (R38, R80). -/
def State.applyWhole (s : State) (c : Channel) (v : Level) : State :=
  (s.setColumn c (lookup v)).setCur c v

/-- One single-bit write of a column, after what falls before it (R38). -/
def State.applyBit (c : Channel) (w : Pattern) (s : State) (j : Slot) : State :=
  s.nextGap.bufWriteBit j c (w.getLsbD j.val)

/-- `APPLY_ATOMIC` = false: 63 single-bit writes in ascending slot order, then `cur`; SLOT may fall between any
two of them (R38). -/
def State.applyBitwise (s : State) (c : Channel) (v : Level) : State :=
  ((List.finRange 63).foldl (State.applyBit c (lookup v)) s).nextGap.setCur c v

/-- Apply for either setting. Where nothing falls inside the write the two settings are the same. -/
def State.applyWith (atomic : Bool) (s : State) (c : Channel) (v : Level) : State :=
  match s.between with
  | [] => s.applyWhole c v
  | _ :: _ => if atomic then s.applyWhole c v else s.applyBitwise c v

/-- `Apply(c, v)` (R80), with the setting of `APPLY_ATOMIC` (log entry 7). -/
def State.apply (s : State) (c : Channel) (v : Level) : State :=
  s.applyWith Config.applyAtomic c v

/-- Apply a level that differs from the committed one; an equal one is skipped (R80, R84, R100). -/
def State.applyIfChanged (s : State) (c : Channel) (v : Level) : State :=
  if v = (s.diode c).cur then s else s.apply c v

/-! ### The engine's checks and effects (R83, R84, R85, R100) -/

/-- The checks GET, SET, FADE, WSET and WGET share, in their order: `inited`, then the index (R83, R167). -/
def State.checkChannel (s : State) (command : Command) (index : Byte) : Except LogEntry Channel :=
  if s.inited then
    match channelOf index with
    | some c => .ok c
    | none => .error (.badIndex command index)
  else .error (.notInitialised command)

/-- SET after its checks: cancel the fade, then apply the clamped level if it differs (R84). -/
def State.setLevel (s : State) (c : Channel) (level : Int) : State :=
  (s.setTick c (s.diode c).dur).applyIfChanged c (clampLevel level)

/-- SET with its checks, on behalf of `command` (R83, R84). -/
def State.setChecked (s : State) (command : Command) (index : Byte) (level : Int) :
    Except LogEntry State :=
  match s.checkChannel command index with
  | .ok c => .ok (s.setLevel c level)
  | .error e => .error e

/-- The native command SET, whoever issues it: a client, or an effect of the animator (R84, R145). -/
def State.setCommand (s : State) (index : Byte) (level : LevelOperand) : State :=
  s.conclude .set (s.setChecked .set index (signedLevel level))

/-- FADE after its checks, for a fade of `d` ticks: record the endpoints, and with no tick to wait for apply the
target at once (R85). -/
def State.startFade (s : State) (c : Channel) (t : Level) (d : BitVec 32) : State :=
  let s' := s.setDiode c
    { cur := (s.diode c).cur, src := (s.diode c).cur, tgt := t, dur := d, tick := 0#32 }
  if d = 0#32 then s'.applyIfChanged c t else s'

/-- FADE with its checks, for a tick rate `hz` (R83, R85, R86). -/
def State.fadeChecked (hz : Nat) (s : State) (index : Byte) (level : LevelOperand)
    (durationMs : BitVec 16) : Except LogEntry State :=
  match s.checkChannel .fade index with
  | .ok c => .ok (s.startFade c (clampLevel (signedLevel level)) (fadeTicks hz durationMs))
  | .error e => .error e

/-- One lane of TICK: an idle diode is skipped, an active one is moved along its ramp and its tick counted
(R100, R105). -/
def State.tickLane (s : State) (c : Channel) : State :=
  if (s.diode c).idle then s
  else (s.applyIfChanged c (s.diode c).rampLevel).setTick c ((s.diode c).tick + 1#32)

/-- The lanes in ascending order (R105). -/
def State.tickAll (s : State) : State := (List.finRange 24).foldl State.tickLane s

/-- GET's answer: a status and a level, `DEFAULT_LEVEL` on a failure; the entry to log, if any (R82). -/
def State.getChecked (s : State) (command : Command) (index : Byte) : Except LogEntry Level :=
  match s.checkChannel command index with
  | .ok c => .ok (s.diode c).cur
  | .error e => .error e

/-! ### The hardware reset (70_reset_and_hazards.md R180, 10_state.md R27) -/

/-- The record the `n`-th reset leaves in channel `c`: unspecified (R27). -/
def unspecifiedDiode (n : Nat) (c : Channel) : Diode :=
  { cur := Config.unspecifiedCur n c
    src := Config.unspecifiedSrc n c
    tgt := Config.unspecifiedTgt n c
    dur := Config.unspecifiedDur n c
    tick := Config.unspecifiedTick n c }

/-- Hardware reset: `inited`, `armed`, `tick_armed` become 0, any pending tick is discarded, every other piece
of the block's state becomes unspecified (free values, log entry 3), and whatever was in progress is gone, the
animator being Idle again (log entry 4). What the block has already emitted, and what is still to arrive, is
outside the block. -/
def State.hardwareReset (s : State) : State :=
  { s with
    inited := false
    armed := false
    tickArmed := false
    pendingTicks := 0
    diodes := tabulate 24 (unspecifiedDiode s.boots)
    masks := tabulate 63 (Config.unspecifiedMask s.boots)
    stored := tabulate 24 (Config.unspecifiedStored s.boots)
    slot := Config.unspecifiedSlot s.boots
    q := Config.unspecifiedQ s.boots
    chain := Config.unspecifiedChain s.boots
    errorLog := if Config.resetClearsLog s.boots then [] else s.errorLog
    animator :=
      { current := Config.unspecifiedAnimation s.boots
        duration := Config.unspecifiedDuration s.boots
        follow := Config.unspecifiedFollow s.boots
        progress := Config.unspecifiedProgress s.boots
        playing := false }
    packets := []
    animWork := []
    boots := s.boots + 1 }

end Sys2Proof.Machine
end

