-- ==== Sys2Proof/Machine/AnimatorOps.lean ====
section
/-! DEFINITION. The animator (45_animator_client.md), and the packets that reach it, WPLAY and WSTOP
(44_wire_commands.md R131, R132). A packet is one step with all its SETs (R40, R120); an `update` issues the SETs of its
frame as later steps (R145). -/

namespace Sys2Proof.Machine

/-! ### The effects (R145 to R148) -/

/-- The level operand of channel `i` in a frame of Sweep/boot: `(1 - min(frac(i * PHI_INV + progress) * 3, 1)) * 63`,
made an integer by `EFFECT_TO_LEVEL` (R146). -/
def sweepLevel (progress : Rat) (i : Channel) : LevelOperand :=
  Config.effectToLevel ((1 - min (frac ((i.val : Rat) * Config.phiInv + progress) * 3) 1) * 63)

/-- Flip: channel `floor(progress * 24)` full on, the others off; at progress 1 that is no channel (R147;
log entry 15). -/
def flipLevel (progress : Rat) (i : Channel) : LevelOperand :=
  if (progress * 24).floor = (i.val : Int) then 63#32 else 0#32

/-- Test/split: channel 4 while progress < 0.5, channel 5 from then on (R148). -/
def splitLevel (progress : Rat) (i : Channel) : LevelOperand :=
  if i.val = (if progress < 1 / 2 then 4 else 5) then 63#32 else 0#32

/-- The level operand an effect gives a channel at a progress (R145). -/
def effectLevel (a : Animation) (progress : Rat) (i : Channel) : LevelOperand :=
  match a with
  | .sweep => sweepLevel progress i
  | .flip => flipLevel progress i
  | .split => splitLevel progress i

/-- The operands of the 24 SETs of one frame, in ascending channel order (R145). -/
def effectFrame (a : Animation) (progress : Rat) : List (Channel × LevelOperand) :=
  (List.finRange 24).map fun i => (i, effectLevel a progress i)

/-- The operands of the SETs of the follow action's terminal effect in `stop` (R143): the last frame once more, every
channel off, or nothing. The restore of StopPreviousState is not the block's (R126, R150). -/
def terminalFrame (a : Animation) : FollowAction → List (Channel × LevelOperand)
  | .loop => []
  | .stopLastFrame => effectFrame a 1
  | .stopOff => (List.finRange 24).map fun i => (i, 0#32)
  | .stopPreviousState => []

/-- The SET an effect issues for one channel: the native command, checks and status included (R145, R84). -/
def State.setFromFrame (s : State) (x : Channel × LevelOperand) : State :=
  s.setCommand (BitVec.ofNat 8 x.1.val) x.2

/-- The SETs of a frame as later steps of the animator (R145). -/
def State.queueFrame (s : State) (frame : List (Channel × LevelOperand)) : State :=
  { s with animWork := frame.map (fun x => AnimStep.set x.1 x.2) ++ s.animWork }

/-- The SETs of a frame within one step (R40, R120). -/
def State.issueFrame (s : State) (frame : List (Channel × LevelOperand)) : State :=
  frame.foldl State.setFromFrame s

/-! ### The operations (R141 to R143) -/

/-- `play`: check the id, then the follow action, then start afresh; a failure leaves the animator as it was
(R141, R164, R151). It does not look at `inited` (DESIGN CHOICE, log entry 26). -/
def State.playChecked (s : State) (animationId ds followId : Byte) : Except LogEntry State :=
  match Config.animationOf animationId with
  | none => .error (.badAnimation animationId)
  | some a =>
    match Config.followOf followId with
    | none => .error (.badFollowAction followId)
    | some f =>
      .ok { s with animator :=
              { current := a
                duration := clampDuration (deciseconds ds)
                follow := f
                progress := 0
                playing := true } }

/-- The fields `stop` writes: not playing, progress 1 (R143). -/
def State.stopFields (s : State) : State :=
  { s with animator := { s.animator with playing := false, progress := 1 } }

/-- `update(dt)`: nothing if not playing; else advance, issue the frame, and at progress 1 resolve the follow
action after the frame (R142). -/
def State.updateNow (s : State) (dt : Rat) : State :=
  if s.animator.playing then
    let p := s.animator.progress + dt / s.animator.duration
    if 1 ≤ p then
      { s with
        animator := { s.animator with progress := 1 }
        animWork := .finish :: s.animWork }.queueFrame (effectFrame s.animator.current 1)
    else
      { s with animator := { s.animator with progress := p } }.queueFrame (effectFrame s.animator.current p)
  else s

/-- The end of a finished `update`: Loop starts again, any other follow action stops (R142). The SETs of the last frame,
an effect's, are later steps (R145); those of StopOff, no effect's, fall in this one (92 D30; log entry 18). -/
def State.finishUpdate (s : State) : State :=
  match s.animator.follow with
  | .loop => { s with animator := { s.animator with progress := 0 } }
  | .stopLastFrame => s.stopFields.queueFrame (terminalFrame s.animator.current .stopLastFrame)
  | .stopOff => s.stopFields.issueFrame (terminalFrame s.animator.current .stopOff)
  | .stopPreviousState => s.stopFields

/-- One of the animator's steps (R145). -/
def State.animStep (s : State) : AnimStep → State
  | .set c level => s.setFromFrame (c, level)
  | .finish => s.finishUpdate

/-- The animator takes its next step. -/
def State.animAdvance (s : State) : State :=
  match s.animWork with
  | [] => s
  | a :: rest => { s with animWork := rest }.animStep a

/-- WPLAY, packet 0x83 (R131, R141, R151). DESIGN CHOICE: before INIT it plays all the same, the spec leaving that open
(91 N30; log entry 26). -/
def execWplay (animationId ds followId : Byte) (s : State) : Host.Outcome State Fault Refusal :=
  .next (s.conclude .wplay (s.playChecked animationId ds followId))

/-- WSTOP, packet 0x84: the fields, the SETs of the terminal effect, OK, all in one step (R132, R143, R40, R120).
DESIGN CHOICE: before INIT it stops all the same and answers OK, each of its SETs being refused and logged, the spec
leaving that open (91 N30; log entry 26). -/
def execWstop (s : State) : Host.Outcome State Fault Refusal :=
  .next ((s.stopFields.issueFrame (terminalFrame s.animator.current s.animator.follow)).succeed .wstop)

end Sys2Proof.Machine
end

