-- ==== Sys2Proof/Machine/Engine.lean ====
section
/-! DEFINITION. The native commands INIT, GET, SET, FADE (41_engine_commands.md). -/

namespace Sys2Proof.Machine

/-- INIT: zero all diode and buffer state, the snapshot and `slot`; set `inited` and `tick_armed`; arm the
output driver if the environment lets it, else ArmFail with everything above done (R81, R163). After it no tick is
pending (R27): the step never takes INIT while one is held, so none is lost (log entry 25). -/
def execInit (s : State) : Host.Outcome State Fault Refusal :=
  let s' : State :=
    { s with
      diodes := Vector.replicate 24 Diode.zero
      stored := Vector.replicate 24 0#6
      masks := Vector.replicate 63 0#24
      slot := 0
      inited := true
      tickArmed := true
      armed := s.armOk
      pendingTicks := 0 }
  .next (if s.armOk then s'.succeed .init else s'.raise .init .armFail)

/-- GET: the committed level, or `DEFAULT_LEVEL` with the failure; no state of the block is written (R82). -/
def execGet (index : Byte) (s : State) : Host.Outcome State Fault Refusal :=
  .next <|
    match s.getChecked .get index with
    | .ok v => s.ret (.level .ok v)
    | .error e => (s.log e).ret (.level e.status Config.defaultLevel)

/-- SET (R84). -/
def execSet (index : Byte) (level : LevelOperand) (s : State) : Host.Outcome State Fault Refusal :=
  .next (s.setCommand index level)

/-- FADE, at the rate `FADE_TICK_HZ` (R85, R86). -/
def execFade (index : Byte) (level : LevelOperand) (durationMs : BitVec 16) (s : State) :
    Host.Outcome State Fault Refusal :=
  .next (s.conclude .fade (s.fadeChecked Config.fadeTickHz index level durationMs))

end Sys2Proof.Machine
end

