-- ==== Sys2Proof/Machine/FadeTick.lean ====
section
/-! DEFINITION. The event TICK (42_fade_tick.md). -/

namespace Sys2Proof.Machine

/-- TICK: while the fade-tick timer is armed, every active diode takes one step of its ramp; otherwise the pulse
is ignored. It returns no status (R100, R103). -/
def execTick (s : State) : Host.Outcome State Fault Refusal :=
  .next (if s.tickArmed then s.tickAll else s)

end Sys2Proof.Machine
end

