-- ==== Sys2Proof/Machine/ShiftOut.lean ====
section
/-! DEFINITION. The event SLOT (43_shift_out.md). -/

namespace Sys2Proof.Machine

/-- SLOT: present one mask, while armed (R110, R114). It returns no status. -/
def execSlot (s : State) : Host.Outcome State Fault Refusal := .next s.slotStep

end Sys2Proof.Machine
end

