-- ==== Sys2Proof/Machine/Wire.lean ====
section
/-! DEFINITION. The wire packets that reach the engine, WSET, WSETALL, WGET, and the device-level packets WVER, WBOOT
(44_wire_commands.md). WPLAY and WSTOP act on the animator and stand in AnimatorOps.lean. -/

namespace Sys2Proof.Machine

/-- One channel of a velocity packet: remember the requested level, and set it unless an animation plays
(R126, R127, R128). -/
def State.requestLevel (s : State) (c : Channel) (level : Nat) (suppressed : Bool) : State :=
  let s' := s.setStored c (clampLevel level)
  if suppressed then s' else s'.setLevel c level

/-- WSET, packet 0x80 (R127). -/
def execWset (channel velocity : Byte) (s : State) : Host.Outcome State Fault Refusal :=
  .next <| s.conclude .wset <|
    match s.checkChannel .wset channel with
    | .ok c => .ok (s.requestLevel c (velToLevel velocity) s.animator.playing)
    | .error e => .error e

/-- One of the 24 atomic steps of packet 0x81; the last one ends the packet with OK (R128, R40). Should the block
have been reset meanwhile, its SET is refused and the packet ends with that failure (R8 `raise`, R165). -/
def State.setAllStep (s : State) (job : SetAll) : State × Option SetAll :=
  if s.inited || job.suppressed then
    let s' := s.requestLevel job.next job.level job.suppressed
    if job.next = 23 then (s'.succeed .wsetall, none)
    else (s', some { job with next := job.next + 1 })
  else ((s.setStored job.next (clampLevel job.level)).raise .wsetall (.notInitialised .wsetall), none)

/-- The `k`-th packet 0x81 in progress takes its next step (R128). -/
def State.packetAdvance (s : State) (k : Nat) : State :=
  match s.packets[k]? with
  | none => s
  | some job =>
    match s.setAllStep job with
    | (s', some job') => { s' with packets := s.packets.set k job' }
    | (s', none) => { s' with packets := s.packets.eraseIdx k }

/-- WSETALL, packet 0x81: the check, `anim_playing` sampled once, and the first of the 24 steps; the packet then
stays in progress until its last step (R128, R40; log entry 17). -/
def execWsetall (velocity : Byte) (s : State) : Host.Outcome State Fault Refusal :=
  .next <|
    if s.inited then
      match s.setAllStep ⟨0, velToLevel velocity, s.animator.playing, s.issuer⟩ with
      | (s', some job) => { s' with packets := s'.packets ++ [job] }
      | (s', none) => s'
    else s.raise .wsetall (.notInitialised .wsetall)

/-- WGET, packet 0x82: GET, its level as a velocity, and a response in every case (R129, R161). -/
def execWget (channel : Byte) (s : State) : Host.Outcome State Fault Refusal :=
  .next <|
    match s.getChecked .wget channel with
    | .ok v => (s.respond 0x82#8 channel (levelToVel v) 0#8).succeed .wget
    | .error e => (s.respond 0x82#8 channel (levelToVel Config.defaultLevel) 0#8).raise .wget e

/-- WVER, packet 0xF0, in any state (R133, R124). -/
def execWver (s : State) : Host.Outcome State Fault Refusal :=
  .next ((s.respond 0xF0#8 Config.versionMajor Config.versionMinor Config.versionPatch).succeed .wver)

/-- WBOOT, packet 0xF1, in any state: the hardware reset; no response packet (R134, R180). -/
def execWboot (s : State) : Host.Outcome State Fault Refusal :=
  .next (s.hardwareReset.succeed .wboot)

end Sys2Proof.Machine
end

