-- ==== Sys2Proof/Machine/Dispatch.lean ====
section
/-! DEFINITION. The meaning of every instruction, one arm each. -/

namespace Sys2Proof.Machine

def exec (i : Instr) (s : State) : Host.Outcome State Fault Refusal :=
  match i with
  | .init => Sys2Proof.Machine.execInit s
  | .get index => Sys2Proof.Machine.execGet index s
  | .set index level => Sys2Proof.Machine.execSet index level s
  | .fade index level durationMs => Sys2Proof.Machine.execFade index level durationMs s
  | .wset channel velocity => Sys2Proof.Machine.execWset channel velocity s
  | .wsetall velocity => Sys2Proof.Machine.execWsetall velocity s
  | .wget channel => Sys2Proof.Machine.execWget channel s
  | .wplay animationId ds followId => Sys2Proof.Machine.execWplay animationId ds followId s
  | .wstop => Sys2Proof.Machine.execWstop s
  | .wver => Sys2Proof.Machine.execWver s
  | .wboot => Sys2Proof.Machine.execWboot s
  | .tick => Sys2Proof.Machine.execTick s
  | .slot => Sys2Proof.Machine.execSlot s
  | .lookup n => Sys2Proof.Machine.execLookup n s

end Sys2Proof.Machine
end

