-- ==== Sys2Proof/Machine/Schedule.lean ====
section
/-! DEFINITION. Which agent takes the next step, what an arrival does, and where the host's word is placed (20_memory.md
R39 to R41, 60_exceptions.md R168, R169). `run` is the meaning of an instruction: Step.lean gives `exec` for it. -/

namespace Sys2Proof.Machine

/-! ### Arrivals that wait -/

/-- The client has a packet 0x81 in progress, so that its next word is not due yet (R41 (2)). -/
def State.clientBusy (s : State) (client : Nat) : Bool :=
  s.packets.any fun job => job.client == client

/-- The packets that call an operation of the animator (R131, R132). -/
def callsAnimator : Decoded → Bool
  | .ok (.wplay _ _ _) => true
  | .ok .wstop => true
  | _ => false

/-- An arrival can be taken now. A word waits for its own client's packet 0x81 (R41 (2)); a packet for the animator, and
`update`, for the `update` in progress (93 U17; log entry 18); INIT for the ticks held (R27, R39; log entry 25). Pulses
and pins wait for nothing. -/
def State.mayTake (s : State) : Input → Bool
  | .word client (.native w) =>
      !s.clientBusy client && (s.pendingTicks == 0 || decode (.native w) != .ok .init)
  | .word client (.wire p) =>
      !s.clientBusy client && (s.animWork.isEmpty || !callsAnimator (decode (.wire p)))
  | .word _ .fadeTick => true
  | .word _ .slotTick => true
  | .word _ (.tableAddress _) => true
  | .rst => true
  | .armOk _ => true
  | .update _ => s.animWork.isEmpty

/-! ### Who moves next -/

/-- An agent can move only if it has something to do. -/
def State.ready (s : State) : Turn → Bool
  | .heldTick => decide (0 < s.pendingTicks)
  | .packet k => decide (k < s.packets.length)
  | .animator => !s.animWork.isEmpty
  | .input =>
    match s.inputs with
    | [] => false
    | x :: _ => s.mayTake x

/-- Who moves when nothing says otherwise: a held tick, then what is in progress, then the next arrival, so that
every operation is finished and no tick is lost (R39, R169; log entry 8). -/
def State.defaultTurn (s : State) : Option Turn :=
  [Turn.heldTick, .packet 0, .animator, .input].find? s.ready

/-- Who moves next: the first of `turns` if it can, else the default (R41 (4)). -/
def State.nextTurn (s : State) : Option Turn :=
  match s.turns with
  | [] => s.defaultTurn
  | t :: _ => if s.ready t then some t else s.defaultTurn

/-! ### The step -/

/-- What an arrival does: a word is decoded and run, or refused with BadOpcode (R162); `rst` resets (R180);
`arm_ok` takes its new level (R22); the application task's `update` reaches the animator (R149). -/
def State.accept (run : Instr → State → Host.Outcome State Fault Refusal) (s : State) (x : Input) :
    Host.Outcome State Fault Refusal :=
  match x with
  | .word client p =>
    match decode p with
    | .ok i => run i { s with issuer := client }
    | .reject e => .next ({ s with issuer := client }.rejectWord e)
  | .rst => .next s.hardwareReset
  | .armOk b => .next { s with armOk := b }
  | .update dt => .next (s.updateNow dt)

/-- The step of the agent whose turn it is; with nobody to move the block does nothing (R180). -/
def State.runTurn (run : Instr → State → Host.Outcome State Fault Refusal) (s : State) :
    Option Turn → Host.Outcome State Fault Refusal
  | none => .next s
  | some .heldTick => run .tick { s with pendingTicks := s.pendingTicks - 1 }
  | some (.packet k) => .next (s.packetAdvance k)
  | some .animator => .next s.animAdvance
  | some .input =>
    match s.inputs with
    | [] => .next s
    | x :: xs => { s with inputs := xs }.accept run x

/-- One step: choose the agent, use up one entry of `turns`, and let it move. -/
def State.stepWith (run : Instr → State → Host.Outcome State Fault Refusal) (s : State) :
    Host.Outcome State Fault Refusal :=
  { s with turns := s.turns.tail }.runTurn run s.nextTurn

/-! ### The host's word -/

/-- A client with no packet 0x81 in progress. -/
def State.freshClient (s : State) : Nat := s.packets.foldl (fun n job => max n (job.client + 1)) 0

/-- The host's table word arrives next, from a client that waits for nothing, and its arrival is the next step
(log entries 9, 10). What the word itself would wait for is out of the way: an `update` in progress for a packet to the
animator, held ticks for INIT. -/
def State.placeWord (s : State) (nbits w : Nat) : State :=
  match tablePortWord nbits w with
  | none => s
  | some p =>
    { s with
      inputs := .word s.freshClient p :: s.inputs
      turns := .input :: s.turns
      animWork := if callsAnimator (decode p) then [] else s.animWork
      pendingTicks := if decode p = .ok .init then 0 else s.pendingTicks }

end Sys2Proof.Machine
end

