-- ==== Sys2Proof/Safety.lean ====
section
/-! DEFINITION. The terms claims are made in: runs of instructions, the invariants of 10_state.md R16 and R19, the quiescent
states of 70_reset_and_hazards.md R183, and what a column write leaves alone (41_engine_commands.md R80). -/

namespace Sys2Proof.Machine

/-- The instructions of a list, one after another, stopping at the first that gives no next state. -/
def execAll : List Instr → State → Host.Outcome State Fault Refusal
  | [], s => .next s
  | i :: is, s =>
    match exec i s with
    | .next s' => execAll is s'
    | .fault r => .fault r
    | .refused r => .refused r

/-- `k` steps of the machine, stopping at the first that gives no next state. -/
def stepTimes : Nat → State → Host.Outcome State Fault Refusal
  | 0, s => .next s
  | k + 1, s =>
    match step s with
    | .next s' => stepTimes k s'
    | .fault r => .fault r
    | .refused r => .refused r

/-- `popcount(v)`: the number of 1 bits of a pattern word (R8). -/
def popcount (w : Pattern) : Nat := (List.finRange 64).countP fun i => w.getLsbD i.val

/-- Column `c` of the buffer holds bits 0..62 of a pattern word (R18, R80). -/
def State.columnShows (s : State) (c : Channel) (w : Pattern) : Prop :=
  ∀ j : Slot, (s.bufRead j).getLsbD c.val = w.getLsbD j.val

/-- Column `c` stands as it stood. -/
def State.columnKept (s t : State) (c : Channel) : Prop :=
  ∀ j : Slot, (t.bufRead j).getLsbD c.val = (s.bufRead j).getLsbD c.val

/-- Every column but `c` stands as it stood: the other 23 bits of every mask are kept (R80). -/
def State.otherColumnsKept (s t : State) (c : Channel) : Prop :=
  ∀ c' : Channel, c' ≠ c → s.columnKept t c'

/-- Every record but `D[c]` stands as it stood: records do not alias (R10). -/
def State.otherDiodesKept (s t : State) (c : Channel) : Prop :=
  ∀ c' : Channel, c' ≠ c → t.diode c' = s.diode c'

/-- `t` is `s` but for the diode file and the buffer. -/
def State.sameButEngine (s t : State) : Prop := t = { s with diodes := t.diodes, masks := t.masks }

/-- `t` is `s` but for the diode file, the buffer, and what the pulses that fall inside a column write do
(R38, R39): none, where none is listed in `between`. -/
def State.sameButColumnWrite (s t : State) : Prop :=
  t = { s with
        diodes := t.diodes, masks := t.masks, slot := t.slot, q := t.q, chain := t.chain,
        frames := t.frames, line := t.line, pendingTicks := t.pendingTicks, between := t.between } ∧
  (s.between = [] → s.sameButEngine t)

/-- `t` is `s` with the record of `c` made `d`, and then, if `v` is not the level that `d` holds, `v` applied to channel `c`
(R80, R84, R85): all that the column write and the pulses inside it do is what `applyWith` says (R38, R39). -/
def State.becomesByApply (s t : State) (c : Channel) (d : Diode) (v : Level) : Prop :=
  (v = d.cur → t = { s with diodes := s.diodes.set c.val d }) ∧
  (v ≠ d.cur →
    t = { s with diodes := s.diodes.set c.val d }.applyWith Config.applyAtomic c v)

/-- The lifecycle flags: the driver is armed only in an initialised block, the tick timer exactly there
(R17, R27). -/
def State.lifecycleOk (s : State) : Prop :=
  (s.armed = true → s.inited = true) ∧ s.tickArmed = s.inited

/-- `tick <= dur`, and `dur` within the bound of R14, in an initialised block (R16). -/
def State.countersOk (s : State) : Prop :=
  s.inited = true →
    ∀ c : Channel, (s.diode c).tick.toNat ≤ (s.diode c).dur.toNat ∧ (s.diode c).dur.toNat ≤ 4294836

/-- Column `c` is the low 63 bits of the pattern of the committed level, in an initialised block (R19). -/
def State.bufferOk (s : State) : Prop :=
  s.inited = true → ∀ c : Channel, s.columnShows c (lookup (s.diode c).cur)

/-- An active diode stands on its ramp: `cur` is the level its fade has reached after `tick` ticks (from R85,
R100, R104). -/
def State.rampsOk (s : State) : Prop :=
  s.inited = true →
    ∀ c : Channel, (s.diode c).active = true →
      (((s.diode c).cur.toNat : Nat) : Int) =
        rampAt (s.diode c).src (s.diode c).tgt (s.diode c).dur.toNat (s.diode c).tick.toNat

/-- The invariant of the engine. -/
def State.Inv (s : State) : Prop :=
  s.lifecycleOk ∧ s.countersOk ∧ s.bufferOk ∧ s.rampsOk

/-- A playing animation has a duration within `[MIN_DURATION, MAX_DURATION]` (R140, R141). -/
def State.animatorOk (s : State) : Prop :=
  s.animator.playing = true →
    Config.minDuration ≤ s.animator.duration ∧ s.animator.duration ≤ Config.maxDuration

/-- Nothing is in progress, nothing is held and nothing falls inside a column write, so that the machine moves on
with what was just begun and then takes its next arrival (log entry 8). -/
def State.undisturbed (s : State) : Prop :=
  s.turns = [] ∧ s.pendingTicks = 0 ∧ s.packets = [] ∧ s.animWork = [] ∧ s.between = []

/-- The step of `s` takes a word that decodes to `i`. -/
def State.takes (s : State) (i : Instr) : Prop :=
  s.nextTurn = some .input ∧
    ∃ (client : Nat) (p : PortWord) (xs : List Input), s.inputs = .word client p :: xs ∧ decode p = .ok i

/-- The step of `s` is a hardware reset, by packet 0xF1 or by the input `rst` (R180). -/
def State.takesReset (s : State) : Prop :=
  s.takes .wboot ∨ (s.nextTurn = some .input ∧ ∃ xs : List Input, s.inputs = .rst :: xs)

/-- Quiescent: no command in progress, neither a packet 0x81 nor SETs that an `update` has still to issue, no tick
pending, every diode idle (R183). -/
def State.quiescent (s : State) : Prop :=
  s.packets = [] ∧ s.animWork = [] ∧ s.pendingTicks = 0 ∧ ∀ c : Channel, (s.diode c).idle = true

end Sys2Proof.Machine
end

