-- ==== Sys2Proof/Certificates/Slice0/Obligations.lean ====
section
/-! DEFINITION. The statements for the provers. Each docstring names the rules of spec/ it formalises, and says where a
statement rests on the model's own choice. -/

open Sys2Proof Sys2Proof.Machine

/-! ### Encoding (30_encoding.md) -/

/-- Decoding the encoding of an instruction gives the instruction back, every operand at every value (R51, R52,
R55, R56). -/
def Obligations.DecodeOfEncodeIsTheInstruction : Prop :=
  ∀ i : Instr, decode (encode i) = .ok i

/-- Encoding what a native word or a packet decodes to gives the word back but for the bits R52 and R56 call
unused, which the encoder writes as zero (R63): no used bit is dropped. -/
def Obligations.EncodeOfDecodedKeepsUsedBits : Prop :=
  (∀ (w : NativeWord) (i : Instr), decode (.native w) = .ok i → encode i = .native (w &&& nativeBitsUsed i)) ∧
  (∀ (p : Packet) (i : Instr), decode (.wire p) = .ok i → encode i = .wire (p &&& wireBitsUsed i))

/-- A native word is rejected exactly when `op` is 0x04..0xFF (R52), a packet exactly when its opcode is none of
the seven (R58), each by its name. -/
def Obligations.ReservedOpcodesAreRejected : Prop :=
  (∀ w : NativeWord,
    (4 ≤ (w.extractLsb' 56 8).toNat → decode (.native w) = .reject (.badNativeOpcode (w.extractLsb' 56 8))) ∧
    ((w.extractLsb' 56 8).toNat < 4 → ∃ i, decode (.native w) = .ok i)) ∧
  (∀ p : Packet,
    (p.extractLsb' 24 8 ∉ [0x80#8, 0x81#8, 0x82#8, 0x83#8, 0x84#8, 0xF0#8, 0xF1#8] →
      decode (.wire p) = .reject (.badWireOpcode (p.extractLsb' 24 8))) ∧
    (p.extractLsb' 24 8 ∈ [0x80#8, 0x81#8, 0x82#8, 0x83#8, 0x84#8, 0xF0#8, 0xF1#8] →
      ∃ i, decode (.wire p) = .ok i))

/-- Words written out from the spec's encodings decode to the instructions they stand for (R63's examples and
programs P1, P2, P4 of 95_test_vectors.md). -/
def Obligations.WrittenOutWordsDecode : Prop :=
  decode (.native 0x0000000000000000#64) = .ok .init ∧
  decode (.native 0x0107000000000000#64) = .ok (.get 7#8) ∧
  decode (.native 0x0205000003E70000#64) = .ok (.set 5#8 999#32) ∧
  decode (.native 0x0200FFFFFFFF0000#64) = .ok (.set 0#8 (-1#32)) ∧
  decode (.native 0x0307000000000028#64) = .ok (.fade 7#8 0#32 40#16) ∧
  decode (.wire 0x80057F00#32) = .ok (.wset 5#8 0x7F#8) ∧
  decode (.wire 0x81400000#32) = .ok (.wsetall 0x40#8) ∧
  decode (.wire 0x82170000#32) = .ok (.wget 0x17#8) ∧
  decode (.wire 0x83633200#32) = .ok (.wplay 0x63#8 0x32#8 0#8) ∧
  decode (.wire 0x84000000#32) = .ok .wstop ∧
  decode (.wire 0xF0000000#32) = .ok .wver ∧
  decode (.wire 0xF1000000#32) = .ok .wboot ∧
  decodeWireBytes [0x80#8, 0x05#8, 0x7F#8, 0x00#8] = .ok (.wset 5#8 0x7F#8)

/-! ### The step (20_memory.md R41) -/

/-- When the next to move is whoever issued the first arrival, and that arrival is a word that decodes to `i`, the
step is `exec i` with the arrival and the turn used up and its client noted. The queue of arrivals and turns, and the
client, are the model's (log entries 8 and 9). -/
def Obligations.StepRunsTheDecodedInstruction : Prop :=
  ∀ (s : State) (client : Nat) (p : PortWord) (i : Instr) (xs : List Input),
    s.nextTurn = some .input → s.inputs = .word client p :: xs → decode p = .ok i →
      step s = exec i { s with inputs := xs, turns := s.turns.tail, issuer := client }

/-- Any agent that has something to do can be the next to move (R41 (4), R169), and the choice is the model's plain
data `turns`; with no choice listed a held tick goes first (R39), then what is in progress, then the next arrival
(log entry 8). -/
def Obligations.TurnsSayWhoMovesNext : Prop :=
  (∀ (s : State) (t : Turn) (ts : List Turn), s.turns = t :: ts → s.ready t = true → s.nextTurn = some t) ∧
  (∀ s : State, s.turns = [] → s.nextTurn =
    if 0 < s.pendingTicks then some .heldTick
    else if s.packets ≠ [] then some (.packet 0)
    else if s.animWork ≠ [] then some .animator
    else if s.inputs ≠ [] then some .input
    else none) ∧
  (∀ s : State, s.nextTurn = some .heldTick →
    step s = exec .tick { s with pendingTicks := s.pendingTicks - 1, turns := s.turns.tail })

/-- The steps of one client keep their order (R41 (2)): a native word or a packet does not arrive while a packet 0x81 of
its own client is in progress. INIT does not come while a tick is held, so that none is lost and none is pending after it
(R39, R27; the model's reading, log entry 25). The waiting never blocks the machine: while something is still to arrive
some agent can move. The client of a word, and who waits for what, are the model's (log entry 8). -/
def Obligations.WordsWaitForTheirClientsPacket : Prop :=
  (∀ (s : State) (client : Nat) (p : PortWord) (xs : List Input), s.inputs = .word client p :: xs →
    ((∃ job ∈ s.packets, job.client = client) →
      ((∃ w : NativeWord, p = .native w) ∨ (∃ w : Packet, p = .wire w)) → s.nextTurn ≠ some .input) ∧
    (0 < s.pendingTicks → decode p = .ok .init → s.nextTurn ≠ some .input)) ∧
  (∀ s : State, s.inputs ≠ [] → s.nextTurn ≠ none)

/-- A word with a reserved opcode (native 0x04..0xFF; on the wire anything but the seven) ends with status BadOpcode
and one log entry holding the opcode byte (R160); it is a no-op otherwise, with no response packet, and the machine goes on
(R125, R162). The queue of arrivals and turns is the model's (log entries 8 and 9), and so are the name `reserved` under
which the status is returned (log entry 16) and that the step itself raises BadOpcode, no instruction (log entry 23). -/
def Obligations.ReservedWordIsANoOpWithBadOpcode : Prop :=
  ∀ (s : State) (client : Nat) (p : PortWord) (op : Byte) (xs : List Input),
    s.nextTurn = some .input → s.inputs = .word client p :: xs →
      ((∃ w : NativeWord, p = .native w ∧ op = w.extractLsb' 56 8 ∧ 4 ≤ op.toNat) ∨
        (∃ w : Packet, p = .wire w ∧ op = w.extractLsb' 24 8 ∧
          op ∉ [0x80#8, 0x81#8, 0x82#8, 0x83#8, 0x84#8, 0xF0#8, 0xF1#8])) →
      step s = .next { s with
        inputs := xs
        turns := s.turns.tail
        issuer := client
        errorLog := s.errorLog ++ [.badOpcode op]
        returns := s.returns ++ [.status .reserved .badOpcode] }

/-- There are no fatal conditions: every step of every state answers a next state (R166 (b)). -/
def Obligations.EveryStepHasANextState : Prop :=
  ∀ s : State, ∃ t : State, step s = .next t

/-! ### The pattern table (40_lut.md) -/

/-- The table is the one the formulas give: the count of set bits is `b(n) = (isqrt(n^3) + 4) div 8`, the one integer
with `(8b - 4)^2 <= n^3 < (8b + 4)^2` (R71), and they stand at the positions `(64 * k) div b(n)` for `k` from 0 to
`b(n) - 1` (R75), in every one of the 64 words. -/
def Obligations.TableFollowsTheFormulas : Prop :=
  ∀ n : Level, ∃ b : Nat,
    b = (Nat.sqrt (n.toNat ^ 3) + 4) / 8 ∧
    (b = 0 ∨ (8 * b - 4) ^ 2 ≤ n.toNat ^ 3) ∧ n.toNat ^ 3 < (8 * b + 4) ^ 2 ∧
    popcount (lookup n) = b ∧
    lookup n = (List.range b).foldl (fun w k => w ||| (1#64 <<< (64 * k / b))) 0#64

/-- The properties of the table: dark at levels 0, 1, 2; never fewer bits at a higher level; bit 63 never set; all
63 emitted bits set at level 63; bit 0 set in every lit word; the levels that share a word with the next one; and from
level 20 up a word of its own, that no other level has (R74 (a), (c) to (h)). -/
def Obligations.TableIsMonotoneAndTopBitFree : Prop :=
  (∀ n : Level, n.toNat ≤ 2 → lookup n = 0#64) ∧
  (∀ n : Level, n ≠ 63#6 → popcount (lookup n) ≤ popcount (lookup (n + 1#6))) ∧
  (∀ n : Level, (lookup n).getLsbD 63 = false) ∧
  lookup 63#6 = 0x7FFFFFFFFFFFFFFF#64 ∧
  (∀ n : Level, lookup n ≠ 0#64 → (lookup n).getLsbD 0 = true) ∧
  (∀ n : Level, n ≠ 63#6 →
    (lookup n = lookup (n + 1#6) ↔ n ∈ [0#6, 1#6, 3#6, 4#6, 6#6, 8#6, 11#6, 14#6, 18#6])) ∧
  (∀ m n : Level, 20 ≤ n.toNat → lookup m = lookup n → m = n)

/-- LOOKUP answers the table's word and writes no state of the block; the answer goes to the reader (R70; that it
is reported in `returns` is the model's, log entry 16). -/
def Obligations.LookupAnswersTheTableWord : Prop :=
  ∀ (n : Level) (s : State),
    exec (.lookup n) s = .next { s with returns := s.returns ++ [.pattern (lutTable[n.toNat]'n.isLt)] }

/-! ### The engine commands (41_engine_commands.md) -/

/-- INIT zeroes every record, every mask, the snapshot and `slot`, sets `inited` and `tick_armed`, and arms the
output driver as `arm_ok` says; ArmFail otherwise, with everything above done (R81, R163). No tick is pending after it
(R27), since the step takes it only with none held (the model's reading, log entry 25). Nothing else changes. -/
def Obligations.InitZeroesAndArms : Prop :=
  ∀ s : State, ∃ t : State,
    exec .init s = .next t ∧
    (∀ c : Channel, t.diode c = ⟨0#6, 0#6, 0#6, 0#32, 0#32⟩) ∧
    (∀ j : Slot, t.bufRead j = 0#24) ∧
    (∀ c : Channel, t.stored[c.val] = 0#6) ∧
    t = { s with
          diodes := t.diodes, masks := t.masks, stored := t.stored, slot := 0
          inited := true, tickArmed := true, armed := s.armOk, pendingTicks := 0
          errorLog := s.errorLog ++ (if s.armOk then [] else [.armFail])
          returns := s.returns ++ [.status .init (if s.armOk then .ok else .armFail)] }

/-- GET answers the committed level; before INIT, or for an index of 24 or more, it answers `DEFAULT_LEVEL` = 0 with
the failure, which is logged. No state of the block is written (R82, R161, R165). -/
def Obligations.GetAnswersTheCommittedLevel : Prop :=
  ∀ (index : Byte) (s : State),
    (s.inited = false →
      exec (.get index) s = .next { s with
        errorLog := s.errorLog ++ [.notInitialised .get]
        returns := s.returns ++ [.level .notInitialised 0#6] }) ∧
    (s.inited = true → 24 ≤ index.toNat →
      exec (.get index) s = .next { s with
        errorLog := s.errorLog ++ [.badIndex .get index]
        returns := s.returns ++ [.level .badIndex 0#6] }) ∧
    (∀ c : Channel, s.inited = true → index.toNat = c.val →
      exec (.get index) s = .next { s with returns := s.returns ++ [.level .ok (s.diode c).cur] })

/-- SET on a channel: the level operand clamped to 0..63 becomes the committed level, the fade is cancelled by
`tick <- dur`, `src`, `tgt` and `dur` stay; the column shows the new pattern if the level changed and is left alone
otherwise; every other record and column stays; the status is OK (R84, R87). All else is what the record, the column write
and the pulses inside it make of the state (R38; log entry 7): nothing, where the level is the old one. -/
def Obligations.SetCommitsTheClampedLevel : Prop :=
  ∀ (index : Byte) (level : LevelOperand) (s : State) (c : Channel),
    s.inited = true → index.toNat = c.val →
      ∃ (t : State) (v : Level),
        exec (.set index level) s = .next t ∧
        (v.toNat : Int) = max 0 (min level.toInt 63) ∧
        t.diode c = { s.diode c with cur := v, tick := (s.diode c).dur } ∧
        (v ≠ (s.diode c).cur → t.columnShows c (lookup v)) ∧
        (v = (s.diode c).cur → s.columnKept t c) ∧
        s.otherDiodesKept t c ∧ s.otherColumnsKept t c ∧
        State.sameButColumnWrite { s with returns := s.returns ++ [.status .set .ok] } t ∧
        State.becomesByApply { s with returns := s.returns ++ [.status .set .ok] } t c
          { s.diode c with tick := (s.diode c).dur } v

/-- SET, FADE and WSET refuse before INIT, and WSETALL too; with INIT done, SET, FADE and WSET refuse an index of
24 or more. The failure is the status and one log entry, and no state changes: no fade is cancelled, no level moves,
nothing is stored (R83, R161, R165, R167). -/
def Obligations.RefusedCommandsChangeNothing : Prop :=
  ∀ (index velocity : Byte) (level : LevelOperand) (ms : BitVec 16) (s : State),
    (s.inited = false →
      exec (.set index level) s = .next { s with
        errorLog := s.errorLog ++ [.notInitialised .set]
        returns := s.returns ++ [.status .set .notInitialised] } ∧
      exec (.fade index level ms) s = .next { s with
        errorLog := s.errorLog ++ [.notInitialised .fade]
        returns := s.returns ++ [.status .fade .notInitialised] } ∧
      exec (.wset index velocity) s = .next { s with
        errorLog := s.errorLog ++ [.notInitialised .wset]
        returns := s.returns ++ [.status .wset .notInitialised] } ∧
      exec (.wsetall velocity) s = .next { s with
        errorLog := s.errorLog ++ [.notInitialised .wsetall]
        returns := s.returns ++ [.status .wsetall .notInitialised] }) ∧
    (s.inited = true → 24 ≤ index.toNat →
      exec (.set index level) s = .next { s with
        errorLog := s.errorLog ++ [.badIndex .set index]
        returns := s.returns ++ [.status .set .badIndex] } ∧
      exec (.fade index level ms) s = .next { s with
        errorLog := s.errorLog ++ [.badIndex .fade index]
        returns := s.returns ++ [.status .fade .badIndex] } ∧
      exec (.wset index velocity) s = .next { s with
        errorLog := s.errorLog ++ [.badIndex .wset index]
        returns := s.returns ++ [.status .wset .badIndex] })

/-- FADE on a channel, for `d = duration_ms * FADE_TICK_HZ / 1000` ticks: `src` is the level it starts from, `tgt` the
clamped target, `dur` is `d`, `tick` 0. With `d` at least 1 nothing else changes; with `d` = 0 the target is applied
at once as SET would, and everything but the diode, its column and what the pulses inside the column write do stays
(R85, R86, R38; log entry 7). -/
def Obligations.FadeRecordsItsEndpoints : Prop :=
  ∀ (index : Byte) (level : LevelOperand) (ms : BitVec 16) (s : State) (c : Channel),
    s.inited = true → index.toNat = c.val →
      ∃ (t : State) (v : Level) (d : BitVec 32),
        exec (.fade index level ms) s = .next t ∧
        (v.toNat : Int) = max 0 (min level.toInt 63) ∧
        d.toNat = ms.toNat * Config.fadeTickHz / 1000 ∧
        s.otherDiodesKept t c ∧
        (1 ≤ d.toNat →
          t.diode c = ⟨(s.diode c).cur, (s.diode c).cur, v, d, 0#32⟩ ∧
          t = { s with diodes := t.diodes, returns := s.returns ++ [.status .fade .ok] }) ∧
        (d.toNat = 0 →
          t.diode c = ⟨v, (s.diode c).cur, v, 0#32, 0#32⟩ ∧
          (v ≠ (s.diode c).cur → t.columnShows c (lookup v)) ∧
          (v = (s.diode c).cur → s.columnKept t c) ∧
          s.otherColumnsKept t c ∧
          State.sameButColumnWrite { s with returns := s.returns ++ [.status .fade .ok] } t ∧
          State.becomesByApply { s with returns := s.returns ++ [.status .fade .ok] } t c
            ⟨(s.diode c).cur, (s.diode c).cur, v, 0#32, 0#32⟩ v)

/-- The duration conversion multiplies first and divides once; for every tick rate R7 admits the product is below
2^32 and the result at most 4 294 836, so nothing wraps; and the model's rate is such a rate (R86, R7). -/
def Obligations.DurationConversionNeverWraps : Prop :=
  (∀ (hz : Nat) (ms : BitVec 16), hz ≤ 65535 →
    ms.toNat * hz < 2 ^ 32 ∧
    (fadeTicks hz ms).toNat = ms.toNat * hz / 1000 ∧
    (fadeTicks hz ms).toNat ≤ 4294836 ∧
    ((fadeTicks hz ms).toNat = 0 ↔ ms.toNat * hz < 1000)) ∧
  1 ≤ Config.fadeTickHz ∧ Config.fadeTickHz ≤ 65535

/-- SET then GET, and a FADE too short for one tick then GET, answer the clamped level at once (R89 (a), (b)). -/
def Obligations.SetThenGetAnswersTheClampedLevel : Prop :=
  ∀ (index : Byte) (level : LevelOperand) (ms : BitVec 16) (s : State) (c : Channel),
    s.inited = true → index.toNat = c.val →
      (∃ (t : State) (v : Level),
        (v.toNat : Int) = max 0 (min level.toInt 63) ∧
        execAll [.set index level, .get index] s = .next t ∧
        t.returns = s.returns ++ [.status .set .ok, .level .ok v]) ∧
      (ms.toNat * Config.fadeTickHz < 1000 →
        ∃ (t : State) (v : Level),
          (v.toNat : Int) = max 0 (min level.toInt 63) ∧
          execAll [.fade index level ms, .get index] s = .next t ∧
          t.returns = s.returns ++ [.status .fade .ok, .level .ok v])

/-- A FADE followed at once by a SET leaves the channel at the level of the SET, idle, with `src`, `tgt` and `dur` those of
the FADE (R189). -/
def Obligations.SetAfterFadeCancelsIt : Prop :=
  ∀ (index : Byte) (target level : LevelOperand) (ms : BitVec 16) (s : State) (c : Channel),
    s.inited = true → index.toNat = c.val →
      ∃ (t : State) (g v : Level) (d : BitVec 32),
        (g.toNat : Int) = max 0 (min target.toInt 63) ∧ (v.toNat : Int) = max 0 (min level.toInt 63) ∧
        d.toNat = ms.toNat * Config.fadeTickHz / 1000 ∧
        execAll [.fade index target ms, .set index level] s = .next t ∧
        t.diode c = ⟨v, (s.diode c).cur, g, d, d⟩ ∧ s.otherDiodesKept t c ∧ s.otherColumnsKept t c

/-! ### TICK (42_fade_tick.md) -/

/-- TICK moves every active diode to `src + tdiv((tgt - src) * (tick + 1), dur)` exactly, shows the new level's pattern if
it differs, and counts the tick; idle diodes and their columns are not touched, `src`, `tgt` and `dur` are never
written. All else is what the lanes, in ascending order, make of the state (R105), and where no level changes nothing
else changes (R100, R102; the pulses inside a column write are those of log entry 7). The premises are the invariant of
R14 and R16. -/
def Obligations.TickMovesEveryActiveDiode : Prop :=
  ∀ s : State, s.tickArmed = true → s.inited = true → s.countersOk →
    ∃ t : State,
      exec .tick s = .next t ∧
      s.sameButColumnWrite t ∧
      ((∀ c : Channel, (t.diode c).cur = (s.diode c).cur) → t = { s with diodes := t.diodes }) ∧
      t = (List.finRange 24).foldl (fun u c =>
        if (s.diode c).tick = (s.diode c).dur then u
        else
          (if (t.diode c).cur = (s.diode c).cur then u
            else u.applyWith Config.applyAtomic c (t.diode c).cur).setTick c ((s.diode c).tick + 1#32)) s ∧
      ∀ c : Channel,
        ((s.diode c).tick = (s.diode c).dur → t.diode c = s.diode c ∧ s.columnKept t c) ∧
        ((s.diode c).tick ≠ (s.diode c).dur →
          ((t.diode c).cur.toNat : Int) =
            ((s.diode c).src.toNat : Int) +
              Int.tdiv ((((s.diode c).tgt.toNat : Int) - ((s.diode c).src.toNat : Int)) *
                (((s.diode c).tick.toNat : Int) + 1)) ((s.diode c).dur.toNat : Int) ∧
          (t.diode c).tick.toNat = (s.diode c).tick.toNat + 1 ∧
          (t.diode c).src = (s.diode c).src ∧ (t.diode c).tgt = (s.diode c).tgt ∧
          (t.diode c).dur = (s.diode c).dur ∧
          ((t.diode c).cur ≠ (s.diode c).cur →
            t.columnShows c (lookup (t.diode c).cur)) ∧
          ((t.diode c).cur = (s.diode c).cur → s.columnKept t c))

/-- A fade-tick pulse while `tick_armed` is 0 is ignored and changes nothing (R103). -/
def Obligations.TickIsIgnoredUntilArmed : Prop :=
  ∀ s : State, s.tickArmed = false → exec .tick s = .next s

/-- Where every diode is idle, as in a quiescent state, TICK changes nothing (R183, R100). -/
def Obligations.TickChangesNothingWhenQuiescent : Prop :=
  (∀ s : State, (∀ c : Channel, (s.diode c).tick = (s.diode c).dur) → exec .tick s = .next s) ∧
  (∀ s : State, s.quiescent → exec .tick s = .next s)

/-- In a quiescent state with the output armed the output repeats the same 63 frames for ever: whatever ticks fall among
the slots, the `n`-th frame from now is that of slot `(slot + n) mod 63`, with the mask that stands there now, and
nothing but the output, its slot among it, changes (R183, R111). -/
def Obligations.QuiescentOutputRepeats : Prop :=
  ∀ (s : State) (events : List Instr),
    s.quiescent → s.armed = true → (∀ i ∈ events, i = .tick ∨ i = .slot) →
      ∃ (t : State) (new : List Frame),
        execAll events s = .next t ∧
        t = { s with slot := t.slot, q := t.q, chain := t.chain, line := t.line, frames := s.frames ++ new } ∧
        t.slot.val = (s.slot.val + events.count .slot) % 63 ∧
        new.length = events.count .slot ∧
        ∀ (n : Nat) (f : Frame), new[n]? = some f →
          f.slot.val = (s.slot.val + n) % 63 ∧ f.mask = s.bufRead f.slot

/-- Properties of the ramp of a fade with duration at least 1: it lands on the target, stays between its endpoints,
never turns back, and does not move at first where it is flatter than one level a tick (R101 (a), (b), (c), (e)). -/
def Obligations.RampLandsAndNeverTurnsBack : Prop :=
  ∀ (src tgt : Level) (dur : Nat), 1 ≤ dur →
    rampAt src tgt dur 0 = (src.toNat : Int) ∧
    rampAt src tgt dur dur = (tgt.toNat : Int) ∧
    (∀ n : Nat, n ≤ dur →
      min (src.toNat : Int) (tgt.toNat : Int) ≤ rampAt src tgt dur n ∧
      rampAt src tgt dur n ≤ max (src.toNat : Int) (tgt.toNat : Int)) ∧
    (∀ n : Nat, src ≤ tgt → rampAt src tgt dur n ≤ rampAt src tgt dur (n + 1)) ∧
    (∀ n : Nat, tgt ≤ src → rampAt src tgt dur (n + 1) ≤ rampAt src tgt dur n) ∧
    (((tgt.toNat : Int) - (src.toNat : Int)).natAbs < dur → rampAt src tgt dur 1 = (src.toNat : Int))

/-- TICK treats the diodes as independent lanes: what it makes of channel `c` depends only on the record and the column
of `c` (R105). -/
def Obligations.TickLanesAreIndependent : Prop :=
  ∀ (s s' : State) (c : Channel),
    s.tickArmed = s'.tickArmed → s.diode c = s'.diode c → s.columnKept s' c →
      ∃ t t' : State,
        exec .tick s = .next t ∧ exec .tick s' = .next t' ∧
        t.diode c = t'.diode c ∧ t.columnKept t' c

/-- An active diode becomes idle at its target after exactly `dur - tick` ticks, its column showing the target, and
is still active after fewer (R104, R101 (a)); from any state that meets the invariant. -/
def Obligations.ActiveDiodeLandsAfterItsRemainingTicks : Prop :=
  ∀ (s : State) (c : Channel), s.Inv → s.inited = true → (s.diode c).active = true →
    (∃ t : State,
      execAll (List.replicate ((s.diode c).dur.toNat - (s.diode c).tick.toNat) .tick) s = .next t ∧
      t.diode c = { s.diode c with cur := (s.diode c).tgt, tick := (s.diode c).dur } ∧
      t.columnShows c (lookup (s.diode c).tgt)) ∧
    (∀ n : Nat, n < (s.diode c).dur.toNat - (s.diode c).tick.toNat →
      ∃ t : State,
        execAll (List.replicate n .tick) s = .next t ∧ (t.diode c).active = true)

/-- A FADE of `d` at least 1 ticks: GET before any TICK still answers the level before the FADE, and after exactly `d`
ticks it answers the clamped target (R89 (c)). -/
def Obligations.FadeReachesItsTargetAfterItsTicks : Prop :=
  ∀ (index : Byte) (level : LevelOperand) (ms : BitVec 16) (s : State) (c : Channel),
    s.Inv → s.inited = true → index.toNat = c.val → 1000 ≤ ms.toNat * Config.fadeTickHz →
      (∃ t : State,
        execAll [.fade index level ms, .get index] s = .next t ∧
        t.returns = s.returns ++ [.status .fade .ok, .level .ok (s.diode c).cur]) ∧
      (∃ (t : State) (v : Level),
        (v.toNat : Int) = max 0 (min level.toInt 63) ∧
        execAll (.fade index level ms ::
          (List.replicate (ms.toNat * Config.fadeTickHz / 1000) .tick ++ [.get index])) s = .next t ∧
        t.returns = s.returns ++ [.status .fade .ok, .level .ok v])

/-! ### SLOT and the column write (43_shift_out.md, 20_memory.md R38, R39) -/

/-- SLOT while armed: the mask of this slot is emitted as a frame, sent bit 23 first and bit 0 last and then latched,
`q` becomes that mask all lines at once, and `slot` moves on, 62 to 0. The buffer, the diode file and everything else
stay (R110, R112). That the serial stage `chain` holds the mask after the frame is the model's reading of the external
chain (log entry 21). -/
def Obligations.SlotPresentsTheMask : Prop :=
  ∀ s : State, s.armed = true →
    ∃ t : State,
      exec .slot s = .next t ∧
      t.slot.val = (s.slot.val + 1) % 63 ∧
      t = { s with
            slot := t.slot
            q := s.bufRead s.slot
            chain := s.bufRead s.slot
            frames := s.frames ++ [⟨s.slot, s.bufRead s.slot⟩]
            line := s.line ++
              ((List.finRange 24).map fun i => LinePulse.bit ((s.bufRead s.slot).getLsbD (23 - i.val))) ++
              [LinePulse.latch] }

/-- While `armed` is 0 no frame is emitted and `slot` and `q` do not change: the pulse is ignored (R114). -/
def Obligations.SlotIsIgnoredUntilArmed : Prop :=
  ∀ s : State, s.armed = false → exec .slot s = .next s

/-- A pattern cycle: 63 SLOT steps from slot 0 present `M[0]` to `M[62]` in order and end at slot 0, and in an initialised
block that meets the invariant channel `c` is on in exactly `popcount(P[D[c].cur])` of those frames (R111). -/
def Obligations.PatternCyclePresentsTheBuffer : Prop :=
  ∀ s : State, s.armed = true → s.slot = 0 →
    ∃ t : State,
      execAll (List.replicate 63 .slot) s = .next t ∧
      t.slot = 0 ∧ t.q = s.bufRead 62 ∧ t.diodes = s.diodes ∧ t.masks = s.masks ∧
      t.frames = s.frames ++ (List.finRange 63).map (fun j => ⟨j, s.bufRead j⟩) ∧
      (s.Inv → ∀ c : Channel,
        (((List.finRange 63).map fun j => s.bufRead j).countP fun m => m.getLsbD c.val) =
          popcount (lookup (s.diode c).cur))

/-- A SET that falls between the SLOT steps for slots `k - 1` and `k` of a pattern cycle: in that cycle the channel shows
bits 0 to `k - 1` of the old pattern and bits `k` to 62 of the new one, and every other channel its own pattern (R113). -/
def Obligations.MixedCycleShowsOldThenNew : Prop :=
  ∀ (index : Byte) (level : LevelOperand) (s : State) (c : Channel) (k : Nat),
    s.Inv → s.armed = true → s.slot = 0 → s.between = [] → index.toNat = c.val → k ≤ 63 →
      ∃ (t : State) (v : Level) (new : List Frame),
        (v.toNat : Int) = max 0 (min level.toInt 63) ∧
        execAll (List.replicate k .slot ++ .set index level :: List.replicate (63 - k) .slot) s = .next t ∧
        t.slot = 0 ∧ t.frames = s.frames ++ new ∧ new.map Frame.slot = List.finRange 63 ∧
        ∀ f ∈ new,
          (f.slot.val < k → f.mask.getLsbD c.val = (lookup (s.diode c).cur).getLsbD f.slot.val) ∧
          (k ≤ f.slot.val → f.mask.getLsbD c.val = (lookup v).getLsbD f.slot.val) ∧
          (∀ c' : Channel, c' ≠ c → f.mask.getLsbD c'.val = (lookup (s.diode c').cur).getLsbD f.slot.val)

/-- `APPLY_ATOMIC` = false: an Apply is 63 single-bit writes in ascending slot order and then the write of `cur`, with a gap
before each of these 64. The frames that SLOT emits in gap `k`, one for each pulse there while the output is armed, are
whole masks whose bit of the channel is the new one exactly at the slots below `k`, already written, and the old one at the
others, the other 23 bits being those of the buffer before; through all the gaps the slots go on one by one (R38, R110,
R114, R115). Which pulses fall in which gap is the model's field `between` (log entry 7). -/
def Obligations.FramesInsideAColumnWriteAreOldOrNew : Prop :=
  ∀ (s : State) (c : Channel) (v : Level),
    ∃ gaps : List (List Frame),
      gaps.length = 64 ∧
      (s.applyWith false c v).frames = s.frames ++ gaps.flatten ∧
      (∀ (n : Nat) (f : Frame), gaps.flatten[n]? = some f → f.slot.val = (s.slot.val + n) % 63) ∧
      ∀ (k : Nat) (fs : List Frame), gaps[k]? = some fs →
        fs.length = (if s.armed then (s.between.getD k []).count .slot else 0) ∧
        ∀ f ∈ fs,
          (∀ c' : Channel, c' ≠ c → f.mask.getLsbD c'.val = (s.bufRead f.slot).getLsbD c'.val) ∧
          (f.slot.val < k → f.mask.getLsbD c.val = (lookup v).getLsbD f.slot.val) ∧
          (k ≤ f.slot.val → f.mask.getLsbD c.val = (s.bufRead f.slot).getLsbD c.val)

/-- A fade-tick pulse that falls inside a column write is held, and none is dropped or merged: the write takes the
gaps that fall in its 64 sub-steps, and the held count grows by exactly the pulses in them (R39, R38). That there are 64
gaps, listed in the model's field `between`, is log entry 7. -/
def Obligations.TicksInsideAColumnWriteAreHeld : Prop :=
  ∀ (s : State) (c : Channel) (v : Level),
    (s.applyWith false c v).pendingTicks =
      s.pendingTicks + (s.between.take 64).flatten.countP (fun x => x == Strobe.fadeTick) ∧
    (s.applyWith false c v).between = s.between.drop 64

/-! ### Wire packets (44_wire_commands.md) -/

/-- The velocity conversions: 0..127 gives 0..63, a byte above 127 63..126, which the clamp brings to 63; level to velocity
gives at most 127; neither inverts the other but at the ends, and a level 1..62 read and written back is one lower
(R121, R122, R123). -/
def Obligations.VelocityConversionsLoseOneLevel : Prop :=
  (∀ vel : Byte, velToLevel vel = vel.toNat * 63 / 127) ∧
  (∀ vel : Byte, vel.toNat ≤ 127 → velToLevel vel ≤ 63) ∧
  (∀ vel : Byte, 127 < vel.toNat →
    63 ≤ velToLevel vel ∧ velToLevel vel ≤ 126 ∧ clampLevel (velToLevel vel) = 63#6) ∧
  (∀ n : Level, (levelToVel n).toNat = n.toNat * 127 / 63 ∧ (levelToVel n).toNat ≤ 127) ∧
  (∀ vel : Byte, vel.toNat ≤ 127 →
    (levelToVel (clampLevel (velToLevel vel)) = vel ↔ (vel = 0#8 ∨ vel = 127#8))) ∧
  (∀ n : Level, n ≠ 0#6 → n ≠ 63#6 → velToLevel (levelToVel n) = n.toNat - 1) ∧
  velToLevel (levelToVel 0#6) = 0 ∧ velToLevel (levelToVel 63#6) = 63

/-- WSET on a channel: the converted level, clamped, is remembered in `stored`; while an animation plays nothing else
happens; otherwise it is set as SET sets it, the fade cancelled. The status is OK either way (R127, R126; the pulses
inside the column write are those of log entry 7). -/
def Obligations.WsetRemembersAndSets : Prop :=
  ∀ (channel velocity : Byte) (s : State) (c : Channel),
    s.inited = true → channel.toNat = c.val →
      ∃ (t : State) (v : Level),
        exec (.wset channel velocity) s = .next t ∧
        v.toNat = min (velocity.toNat * 63 / 127) 63 ∧
        (s.animator.playing = true →
          t = { s with
                stored := s.stored.set c.val v
                returns := s.returns ++ [.status .wset .ok] }) ∧
        (s.animator.playing = false →
          t.diode c = { s.diode c with cur := v, tick := (s.diode c).dur } ∧
          (v ≠ (s.diode c).cur → t.columnShows c (lookup v)) ∧
          (v = (s.diode c).cur → s.columnKept t c) ∧
          s.otherDiodesKept t c ∧ s.otherColumnsKept t c ∧
          State.sameButColumnWrite { s with
            stored := s.stored.set c.val v
            returns := s.returns ++ [.status .wset .ok] } t ∧
          State.becomesByApply { s with
            stored := s.stored.set c.val v
            returns := s.returns ++ [.status .wset .ok] } t c
            { s.diode c with tick := (s.diode c).dur } v)

/-- The first step of WSETALL: channel 0 is remembered, and set unless an animation plays, and the packet stays in
progress with channel 1 next, the velocity's level, `anim_playing` as sampled, and the client that waits for it; nothing
is returned yet (R128, R40). That the step that takes the packet does channel 0 as well is the model's grouping (log
entry 17); the client is the model's (log entry 8), and so are the pulses inside the column write (log entry 7). -/
def Obligations.WsetallTakesItsFirstStep : Prop :=
  ∀ (velocity : Byte) (s : State), s.inited = true →
    ∃ (t : State) (v : Level),
      exec (.wsetall velocity) s = .next t ∧
      v.toNat = min (velocity.toNat * 63 / 127) 63 ∧
      t.stored = s.stored.set 0 v ∧
      t.packets = s.packets ++ [⟨1, velocity.toNat * 63 / 127, s.animator.playing, s.issuer⟩] ∧
      t.returns = s.returns ∧
      (s.animator.playing = true → t = { s with stored := t.stored, packets := t.packets }) ∧
      (s.animator.playing = false →
        t.diode 0 = { s.diode 0 with cur := v, tick := (s.diode 0).dur } ∧
        (v ≠ (s.diode 0).cur → t.columnShows 0 (lookup v)) ∧
        (v = (s.diode 0).cur → s.columnKept t 0) ∧
        s.otherDiodesKept t 0 ∧ s.otherColumnsKept t 0 ∧
        State.sameButColumnWrite { s with stored := t.stored, packets := t.packets } t ∧
        State.becomesByApply { s with stored := t.stored, packets := t.packets } t 0
          { s.diode 0 with tick := (s.diode 0).dur } v)

/-- A later step of a packet 0x81, in any state, whoever has moved since it began: it remembers the level for its channel,
and sets it exactly if no animation played when the packet began, whatever `playing` is now (R128, R126); its 24th step
ends it with OK, any other leaves channel `next + 1` to do (R40). The list of packets in progress, who moves, and the
grouping of the steps are the model's (log entries 8 and 17); so is the case of a block that is not initialised, which no
run reaches (log entry 17), and the pulses inside the column write (log entry 7). -/
def Obligations.PacketStepGoesByItsSample : Prop :=
  ∀ (s : State) (k : Nat) (job : SetAll), s.nextTurn = some (.packet k) → s.packets[k]? = some job →
    ∃ (t s' : State) (v : Level),
      step s = .next t ∧
      v.toNat = min job.level 63 ∧
      s' = { s with
             turns := s.turns.tail
             stored := s.stored.set job.next.val v
             packets := if job.next = 23 then s.packets.eraseIdx k
                        else s.packets.set k { job with next := job.next + 1 }
             returns := s.returns ++ (if job.next = 23 then [.status .wsetall .ok] else []) } ∧
      (job.suppressed = true → t = s') ∧
      (job.suppressed = false → s.inited = true →
        s'.becomesByApply t job.next { s.diode job.next with tick := (s.diode job.next).dur } v ∧
        t.diode job.next = { s.diode job.next with cur := v, tick := (s.diode job.next).dur } ∧
        (v ≠ (s.diode job.next).cur → t.columnShows job.next (lookup v)) ∧
        s.otherDiodesKept t job.next ∧ s.otherColumnsKept t job.next) ∧
      (job.suppressed = false → s.inited = false →
        t = { s with
              turns := s.turns.tail
              stored := s.stored.set job.next.val v
              packets := s.packets.eraseIdx k
              errorLog := s.errorLog ++ [.notInitialised .wsetall]
              returns := s.returns ++ [.status .wsetall .notInitialised] })

/-- WSETALL as a whole: with nothing falling between its 24 atomic steps it ends after them with OK, every channel
remembered; and, unless an animation plays, every channel at the level, idle, its column showing that level where it
changed. Nothing else changes (R128, R126, R40). One step and 23 more, the status with the last, is the model's grouping
(log entry 17); that nobody else moves is its order of moves (log entry 8). -/
def Obligations.WsetallSetsEveryChannelIn24Steps : Prop :=
  ∀ (velocity : Byte) (s : State), s.inited = true → s.undisturbed →
    ∃ (t u : State) (v : Level),
      exec (.wsetall velocity) s = .next t ∧ stepTimes 23 t = .next u ∧
      v.toNat = min (velocity.toNat * 63 / 127) 63 ∧
      (∀ c : Channel, u.stored[c.val] = v) ∧
      (s.animator.playing = true →
        u = { s with stored := u.stored, returns := s.returns ++ [.status .wsetall .ok] }) ∧
      (s.animator.playing = false →
        (∀ c : Channel,
          u.diode c = { s.diode c with cur := v, tick := (s.diode c).dur } ∧
          (v ≠ (s.diode c).cur → u.columnShows c (lookup v)) ∧
          (v = (s.diode c).cur → s.columnKept u c)) ∧
        u = { s with
              diodes := u.diodes, masks := u.masks, stored := u.stored
              returns := s.returns ++ [.status .wsetall .ok] })

/-- WGET answers `[0x82, channel, velocity, 0]` with the committed level as a velocity; before INIT, or on a bad
channel, the velocity is 0 and the failure is the status and one log entry (R160). No other state is written, animation or
not (R129, R161, R165). That the entry names WGET, though WGET calls GET, is the model's reading (log entry 20). -/
def Obligations.WgetRespondsInEveryCase : Prop :=
  ∀ (channel : Byte) (s : State),
    (s.inited = false →
      exec (.wget channel) s = .next { s with
        responses := s.responses ++ [0x82#8 ++ channel ++ 0#8 ++ 0#8]
        errorLog := s.errorLog ++ [.notInitialised .wget]
        returns := s.returns ++ [.status .wget .notInitialised] }) ∧
    (s.inited = true → 24 ≤ channel.toNat →
      exec (.wget channel) s = .next { s with
        responses := s.responses ++ [0x82#8 ++ channel ++ 0#8 ++ 0#8]
        errorLog := s.errorLog ++ [.badIndex .wget channel]
        returns := s.returns ++ [.status .wget .badIndex] }) ∧
    (∀ c : Channel, s.inited = true → channel.toNat = c.val →
      ∃ vel : Byte, vel.toNat = (s.diode c).cur.toNat * 127 / 63 ∧
        exec (.wget channel) s = .next { s with
          responses := s.responses ++ [0x82#8 ++ channel ++ vel ++ 0#8]
          returns := s.returns ++ [.status .wget .ok] })

/-- WVER answers `[0xF0, major, minor, patch]` in any state and writes nothing else (R133, R124). -/
def Obligations.WverRespondsWithTheVersion : Prop :=
  ∀ s : State,
    exec .wver s = .next { s with
      responses := s.responses ++
        [0xF0#8 ++ Config.versionMajor ++ Config.versionMinor ++ Config.versionPatch]
      returns := s.returns ++ [.status .wver .ok] }

/-- WBOOT is the hardware reset, in any state: `inited`, `armed` and `tick_armed` become 0 and any pending tick is
discarded, with no response packet (R134, R180). That packets in progress and the animator's work are gone, and the
animator Idle, is the model's reading (log entry 4); what is still to arrive stays. -/
def Obligations.WbootResetsTheBlock : Prop :=
  ∀ s : State, ∃ t : State,
    exec .wboot s = .next t ∧
    t.inited = false ∧ t.armed = false ∧ t.tickArmed = false ∧ t.pendingTicks = 0 ∧
    t.packets = [] ∧ t.animWork = [] ∧ t.animator.playing = false ∧
    t.responses = s.responses ∧ t.frames = s.frames ∧ t.line = s.line ∧
    t.returns = s.returns ++ [.status .wboot .ok] ∧
    t.armOk = s.armOk ∧ t.inputs = s.inputs ∧ t.turns = s.turns ∧ t.between = s.between ∧
    (t.errorLog = s.errorLog ∨ t.errorLog = [])

/-- The input `rst` does what WBOOT does, but that no command returns a status (R180). That the two leave the same state,
the unspecified values and the dropped work alike, is the model's (log entries 3 and 4), and so is the queue `rst` arrives
in (log entries 8 and 9). -/
def Obligations.ResetPinActsAsWboot : Prop :=
  ∀ (s : State) (xs : List Input), s.nextTurn = some .input → s.inputs = .rst :: xs →
    ∃ t u : State,
      step s = .next t ∧
      exec .wboot { s with inputs := xs, turns := s.turns.tail } = .next u ∧
      u = { t with returns := t.returns ++ [.status .wboot .ok] } ∧
      t.inited = false ∧ t.armed = false ∧ t.tickArmed = false ∧ t.pendingTicks = 0

/-! ### The animator (45_animator_client.md) -/

/-- WPLAY with a known animation and a known follow action, in every state: the animation starts afresh at progress 0,
its duration the deciseconds clamped to `[MIN_DURATION, MAX_DURATION]`; nothing is written to the engine (R131, R141,
R151). That it does so before INIT as well is the model's choice, the spec leaving it open (91_not_in_source.md N30; log
entry 26). -/
def Obligations.WplayStartsTheAnimation : Prop :=
  Config.minDuration ≤ Config.maxDuration ∧
  ∀ (id ds fid : Byte) (s : State) (a : Animation) (f : FollowAction),
    Config.animationOf id = some a → Config.followOf fid = some f →
      exec (.wplay id ds fid) s = .next { s with
        animator :=
          { current := a
            duration := max Config.minDuration (min ((ds.toNat : Rat) / 10) Config.maxDuration)
            follow := f
            progress := 0
            playing := true }
        returns := s.returns ++ [.status .wplay .ok] }

/-- WPLAY with an unknown animation id fails with BadAnimation, and with a known id and an unknown follow action with
BadFollowAction; the animator is unchanged. The id 99 is unknown (R141, R164, 95_test_vectors.md S7). That the ids are
looked up before INIT as well is the model's choice (91_not_in_source.md N30; log entry 26). -/
def Obligations.WplayRefusesUnknownIds : Prop :=
  (∀ (id ds fid : Byte) (s : State), Config.animationOf id = none →
    exec (.wplay id ds fid) s = .next { s with
      errorLog := s.errorLog ++ [.badAnimation id]
      returns := s.returns ++ [.status .wplay .badAnimation] }) ∧
  (∀ (id ds fid : Byte) (s : State) (a : Animation),
    Config.animationOf id = some a → Config.followOf fid = none →
      exec (.wplay id ds fid) s = .next { s with
        errorLog := s.errorLog ++ [.badFollowAction fid]
        returns := s.returns ++ [.status .wplay .badFollowAction] }) ∧
  Config.animationOf 99#8 = none ∧ (∃ a, Config.animationOf 0#8 = some a)

/-- WSTOP, in every state and in one step (R40, R120): `playing` becomes false and `progress` 1; Loop and
StopPreviousState do no more; StopOff is then the 24 commands SET to level 0, StopLastFrame those of the frame of the
effect at progress 1, in ascending order; and then the status is returned (R132, R143). That these SETs fall within the
step, and that each returns its own status as SET, are the model's readings (log entries 18 and 20); that the frame of Flip
at progress 1 has no SET for channel 24 is its choice (log entry 15), and so is that WSTOP acts before INIT as well, its SETs
being refused (91_not_in_source.md N30; log entry 26). -/
def Obligations.WstopStopsTheAnimation : Prop :=
  ∀ s : State,
    ((s.animator.follow = .loop ∨ s.animator.follow = .stopPreviousState) →
      exec .wstop s = .next { s with
        animator := { s.animator with playing := false, progress := 1 }
        returns := s.returns ++ [.status .wstop .ok] }) ∧
    (s.animator.follow = .stopOff →
      ∃ u : State,
        execAll ((List.finRange 24).map fun c => Instr.set (BitVec.ofNat 8 c.val) 0#32)
          { s with animator := { s.animator with playing := false, progress := 1 } } = .next u ∧
        exec .wstop s = .next { u with returns := u.returns ++ [.status .wstop .ok] }) ∧
    (s.animator.follow = .stopLastFrame →
      ∃ u : State,
        execAll ((List.finRange 24).map fun c =>
            Instr.set (BitVec.ofNat 8 c.val) (effectLevel s.animator.current 1 c))
          { s with animator := { s.animator with playing := false, progress := 1 } } = .next u ∧
        exec .wstop s = .next { u with returns := u.returns ++ [.status .wstop .ok] })

/-- WPLAY, WSTOP and the call `update` that come while an `update` is in progress wait for it: the animator's operations
are those of one agent, one after another (93_implementation_defined.md U17; that they wait in the queue of arrivals is
the model's, log entry 18). -/
def Obligations.BusyAnimatorMakesPacketsWait : Prop :=
  ∀ (s : State) (xs : List Input), s.animWork ≠ [] →
    (∀ (client : Nat) (p : PortWord), s.inputs = .word client p :: xs →
      (decode p = .ok .wstop ∨ ∃ id ds fid : Byte, decode p = .ok (.wplay id ds fid)) →
        s.nextTurn ≠ some .input) ∧
    (∀ dt : Rat, s.inputs = .update dt :: xs → s.nextTurn ≠ some .input)

/-- WSTOP with follow action StopOff, in one step from every initialised state: every channel is at level 0 and idle, the
animator stopped at progress 1, and the 24 SETs and then WSTOP have returned OK (R143, R132, R40). That the SETs fall
within the step, and that each returns its status as SET, are the model's readings (log entries 18 and 20). -/
def Obligations.StopOffDarkensEveryChannel : Prop :=
  ∀ s : State, s.inited = true → s.animator.follow = .stopOff →
    ∃ u : State,
      exec .wstop s = .next u ∧
      (∀ c : Channel, (u.diode c).cur = 0#6 ∧ (u.diode c).idle = true) ∧
      u.animator = { s.animator with playing := false, progress := 1 } ∧
      u.animWork = s.animWork ∧ u.stored = s.stored ∧ u.errorLog = s.errorLog ∧
      u.returns = s.returns ++ List.replicate 24 (.status .set .ok) ++ [.status .wstop .ok]

/-- `update(dt)`: nothing if not playing; otherwise progress advances by `dt / duration`, and the frame of the effect at
the new progress is to be issued, each SET a step of the animator, the command SET of a client (R142, R145); at 1 or more
progress is 1 and the follow action is resolved after the frame: Loop goes on from progress 0, the others stop the animator
at progress 1, StopLastFrame with the frame at progress 1 once more to be issued, StopOff with the 24 SETs to level 0 within
that step, StopPreviousState with nothing more (R142, R143). Arrivals and turns are the model's (log entries 8 and 9); the
steps of an update, and that those of StopOff are one, are its reading (log entry 18); that progress is an exact rational,
and that Flip at progress 1 issues no SET for channel 24, are its choices (log entries 12 and 15). -/
def Obligations.UpdateAdvancesTheAnimation : Prop :=
  (∀ (s : State) (dt : Rat) (xs : List Input), s.nextTurn = some .input → s.inputs = .update dt :: xs →
    (s.animator.playing = false → step s = .next { s with inputs := xs, turns := s.turns.tail }) ∧
    (s.animator.playing = true → s.animator.progress + dt / s.animator.duration < 1 →
      step s = .next { s with
        inputs := xs
        turns := s.turns.tail
        animator := { s.animator with progress := s.animator.progress + dt / s.animator.duration }
        animWork := (List.finRange 24).map fun c => AnimStep.set c
          (effectLevel s.animator.current (s.animator.progress + dt / s.animator.duration) c) }) ∧
    (s.animator.playing = true → 1 ≤ s.animator.progress + dt / s.animator.duration →
      step s = .next { s with
        inputs := xs
        turns := s.turns.tail
        animator := { s.animator with progress := 1 }
        animWork := ((List.finRange 24).map fun c =>
          AnimStep.set c (effectLevel s.animator.current 1 c)) ++ [.finish] })) ∧
  (∀ (s : State) (c : Channel) (level : LevelOperand) (rest : List AnimStep),
    s.nextTurn = some .animator → s.animWork = .set c level :: rest →
      step s = exec (.set (BitVec.ofNat 8 c.val) level) { s with turns := s.turns.tail, animWork := rest }) ∧
  (∀ (s : State) (rest : List AnimStep), s.nextTurn = some .animator → s.animWork = .finish :: rest →
    (s.animator.follow = .loop →
      step s = .next { s with
        turns := s.turns.tail, animWork := rest, animator := { s.animator with progress := 0 } }) ∧
    (s.animator.follow = .stopLastFrame →
      step s = .next { s with
        turns := s.turns.tail
        animator := { s.animator with playing := false, progress := 1 }
        animWork := ((List.finRange 24).map fun c =>
          AnimStep.set c (effectLevel s.animator.current 1 c)) ++ rest }) ∧
    (s.animator.follow = .stopOff →
      step s = execAll ((List.finRange 24).map fun c => Instr.set (BitVec.ofNat 8 c.val) 0#32) { s with
        turns := s.turns.tail
        animWork := rest
        animator := { s.animator with playing := false, progress := 1 } }) ∧
    (s.animator.follow = .stopPreviousState →
      step s = .next { s with
        turns := s.turns.tail
        animWork := rest
        animator := { s.animator with playing := false, progress := 1 } }))

/-- Loop over its whole duration: an animation that plays for 5 seconds and is updated every 20 ms is, after the 250
calls and the 24 SETs of each, back at progress 0 and still playing, over the rationals (R142, R152, D37). That the
250th call is the one that finishes rests on exact rationals (log entry 12); the count of steps on the model's reading of an
update (log entry 18) and, for Flip, on its choice to issue no 25th SET at progress 1 (log entry 15); the order of moves is
its choice (log entry 8). -/
def Obligations.LoopStartsAgainAfterItsDuration : Prop :=
  ∀ s : State, s.undisturbed → s.animator.playing = true → s.animator.follow = .loop →
    s.animator.progress = 0 → s.animator.duration = 5 →
      s.inputs = List.replicate 250 (.update (1 / 50)) →
        ∃ t : State,
          stepTimes (250 * 25 + 1) s = .next t ∧
          t.animator = s.animator ∧ t.inputs = [] ∧ t.animWork = []

/-- StopOff over its whole duration: an animation that plays for 5 seconds with follow action StopOff and is updated every
20 ms has, after the 250 calls and all the SETs they issue, stopped with every channel at level 0 and idle
(R142, R143, 95_test_vectors.md S6). That the 250th call is the one that finishes rests on exact rationals (R152; log
entry 12); the count of steps on the model's reading of an update (log entry 18) and, for Flip, on its choice to issue no
25th SET at progress 1 (log entry 15); the order of moves is its choice (log entry 8). -/
def Obligations.StopOffEndsDarkAfterItsDuration : Prop :=
  ∀ s : State, s.inited = true → s.undisturbed → s.animator.playing = true → s.animator.follow = .stopOff →
    s.animator.progress = 0 → s.animator.duration = 5 →
      s.inputs = List.replicate 250 (.update (1 / 50)) →
        ∃ t : State,
          stepTimes (250 * 25 + 1) s = .next t ∧
          t.animator = { s.animator with playing := false, progress := 1 } ∧
          (∀ c : Channel, (t.diode c).cur = 0#6 ∧ (t.diode c).idle = true) ∧
          t.inputs = [] ∧ t.animWork = []

/-- The effects Flip and Test/split: Flip lights exactly channel `floor(progress * 24)`, Test/split channel 4 before half
way and channel 5 from then on, and every other channel is at level 0; at progress 1 Flip lights none (R147, R148;
that no SET for channel 24 is issued then is the model's choice, log entry 15). -/
def Obligations.EffectsLightOneChannel : Prop :=
  (∀ (c k : Channel) (p : Rat), (k.val : Rat) ≤ p * 24 → p * 24 < (k.val : Rat) + 1 →
    effectLevel .flip p c = if c = k then 63#32 else 0#32) ∧
  (∀ c : Channel, effectLevel .flip 1 c = 0#32) ∧
  (∀ (c : Channel) (p : Rat), p < 1 / 2 → effectLevel .split p c = if c = 4 then 63#32 else 0#32) ∧
  (∀ (c : Channel) (p : Rat), 1 / 2 ≤ p → effectLevel .split p c = if c = 5 then 63#32 else 0#32)

/-! ### Invariants and whole-machine rules -/

/-- After a hardware reset the flags are 0 and no tick is pending (R27, R180), so the invariant holds of the state after
reset; the animator is Idle (R140). -/
def Obligations.ResetMeetsTheInvariant : Prop :=
  State.reset.inited = false ∧ State.reset.armed = false ∧ State.reset.tickArmed = false ∧
  State.reset.pendingTicks = 0 ∧ State.reset.animator.playing = false ∧
  State.reset.Inv ∧ State.reset.animatorOk

/-- Every step keeps the invariant: in an initialised block `tick <= dur` (R16), every column is the pattern of its
committed level (R19), every active diode stands on its ramp (R104), and the driver is armed only in an initialised
block (R17). -/
def Obligations.EveryStepKeepsTheInvariant : Prop :=
  ∀ s t : State, s.Inv → step s = .next t → t.Inv

/-- Every step keeps a playing animation's duration within `[MIN_DURATION, MAX_DURATION]` (R140, R141). -/
def Obligations.EveryStepKeepsTheDurationClamped : Prop :=
  ∀ s t : State, s.animatorOk → step s = .next t → t.animatorOk

/-- `inited`, `armed` and `tick_armed` are written only by INIT and by a reset (R17, R180): no other step of any agent
changes them. The steps are the model's (log entries 8 and 9). -/
def Obligations.OnlyInitAndResetWriteTheLifecycle : Prop :=
  ∀ s t : State, step s = .next t → ¬ s.takes .init → ¬ s.takesReset →
    t.inited = s.inited ∧ t.armed = s.armed ∧ t.tickArmed = s.tickArmed

/-- `q`, the serial line and the frames are written only by SLOT, and `slot` only by SLOT and INIT, a reset apart (R17,
R110); `stored` only by INIT and the packets 0x80 and 0x81, each of its 24 steps, a reset apart (R21): no other step of any
agent changes them. A SLOT that falls inside a column write, listed in `between`, is a SLOT (log entry 7); the steps are
the model's (log entries 8 and 9). -/
def Obligations.OnlySlotDrivesTheOutput : Prop :=
  ∀ s t : State, step s = .next t → ¬ s.takesReset →
    (¬ s.takes .slot → s.between = [] →
      t.q = s.q ∧ t.chain = s.chain ∧ t.frames = s.frames ∧ t.line = s.line ∧
      (¬ s.takes .init → t.slot = s.slot)) ∧
    (¬ s.takes .init → (∀ ch vel, ¬ s.takes (.wset ch vel)) → (∀ vel, ¬ s.takes (.wsetall vel)) →
      (∀ k, s.nextTurn ≠ some (.packet k)) → t.stored = s.stored)

/-- A native command or a packet on channel `c` never touches another diode: SET, FADE and WSET leave every other record
and column as they were, whatever their outcome (R10). -/
def Obligations.ChannelCommandsKeepOtherChannels : Prop :=
  ∀ (index velocity : Byte) (level : LevelOperand) (ms : BitVec 16) (s t : State) (i : Instr) (c : Channel),
    i ∈ [Instr.set index level, Instr.fade index level ms, Instr.wset index velocity] →
      c.val ≠ index.toNat → exec i s = .next t → t.diode c = s.diode c ∧ s.columnKept t c

/-- The codes of the statuses, and the status each failure is reported with (R160). -/
def Obligations.StatusCodes : Prop :=
  Status.ok.code = 0#3 ∧ Status.badIndex.code = 1#3 ∧ Status.badOpcode.code = 2#3 ∧
  Status.armFail.code = 3#3 ∧ Status.notInitialised.code = 4#3 ∧ Status.badAnimation.code = 5#3 ∧
  Status.badFollowAction.code = 6#3 ∧ (∀ st : Status, st.code ≠ 7#3) ∧
  (∀ (command : Command) (b : Byte),
    (LogEntry.badIndex command b).status = .badIndex ∧ (LogEntry.badOpcode b).status = .badOpcode ∧
    LogEntry.armFail.status = .armFail ∧ (LogEntry.notInitialised command).status = .notInitialised ∧
    (LogEntry.badAnimation b).status = .badAnimation ∧ (LogEntry.badFollowAction b).status = .badFollowAction)

/-- Each of the seven text forms, with every operand that its field holds, assembles to the word of its operation, the
unused fields zero; the pseudo-operations to that many lines TICK or SLOT (R51, R52, R55, R63, R64). So do
the given lines of characters, R63's examples and one of each other form, with a comment dropped and an operand in base
sixteen after `0x`. No clause rests on what a line may look like beyond R63's forms (log entry 27). -/
def Obligations.TextLinesAssemble : Prop :=
  TextLine.assemble .init = some [.native 0x0000000000000000#64] ∧
  (∀ c : Nat, c < 256 →
    TextLine.assemble (.get c) = some [.native (0x01#8 ++ BitVec.ofNat 8 c ++ 0#32 ++ 0#16)]) ∧
  (∀ (c : Nat) (v : Int), c < 256 → -2147483648 ≤ v → v ≤ 2147483647 →
    TextLine.assemble (.set c v) =
      some [.native (0x02#8 ++ BitVec.ofNat 8 c ++ BitVec.ofInt 32 v ++ 0#16)]) ∧
  (∀ (c : Nat) (v : Int) (ms : Nat), c < 256 → -2147483648 ≤ v → v ≤ 2147483647 → ms < 65536 →
    TextLine.assemble (.fade c v ms) =
      some [.native (0x03#8 ++ BitVec.ofNat 8 c ++ BitVec.ofInt 32 v ++ BitVec.ofNat 16 ms)]) ∧
  TextLine.assemble .tick = some [.fadeTick] ∧
  TextLine.assemble .slot = some [.slotTick] ∧
  (∀ b0 b1 b2 b3 : Byte, TextLine.assemble (.pkt b0 b1 b2 b3) = some [.wire (b0 ++ b1 ++ b2 ++ b3)]) ∧
  (∀ n : Nat, TextLine.assemble (.ticks n) = some (List.replicate n .fadeTick)) ∧
  (∀ n : Nat, TextLine.assemble (.slots n) = some (List.replicate n .slotTick)) ∧
  TextLine.assemble .cycle = some (List.replicate 63 .slotTick) ∧
  assembleLine ['I', 'N', 'I', 'T', ' ', ';', ' ', 'a', 'r', 'm', '_', 'o', 'k', '=', '1'] =
    some [.native 0x0000000000000000#64] ∧
  assembleLine ['G', 'E', 'T', ' ', '0', 'x', '1', '7'] = some [.native 0x0117000000000000#64] ∧
  assembleLine ['S', 'E', 'T', ' ', '5', ',', ' ', '9', '9', '9'] = some [.native 0x0205000003E70000#64] ∧
  assembleLine ['S', 'E', 'T', ' ', '0', ',', ' ', '-', '1'] = some [.native 0x0200FFFFFFFF0000#64] ∧
  assembleLine ['F', 'A', 'D', 'E', ' ', '7', ',', ' ', '0', ',', ' ', '4', '0'] =
    some [.native 0x0307000000000028#64] ∧
  assembleLine ['T', 'I', 'C', 'K'] = some [.fadeTick] ∧
  assembleLine ['S', 'L', 'O', 'T'] = some [.slotTick] ∧
  assembleLine ['P', 'K', 'T', ' ', '8', '0', ' ', '0', '5', ' ', '7', 'F', ' ', '0', '0'] =
    some [.wire 0x80057F00#32] ∧
  assembleLine ['T', 'I', 'C', 'K', 'S', ' ', '2'] = some [.fadeTick, .fadeTick] ∧
  assembleLine ['S', 'L', 'O', 'T', 'S', ' ', '2'] = some [.slotTick, .slotTick] ∧
  assembleLine ['C', 'Y', 'C', 'L', 'E'] = some (List.replicate 63 .slotTick)
end

