-- ==== Sys2Proof/Laws/State.lean ====
section
/-! SUPPORT. One lemma per field per update of the state, each true by rfl. -/

namespace Sys2Proof.Machine

variable (s : State)

/-! ### State.ret -/

@[simp] theorem State.ret_inited (r : Return) : (s.ret r).inited = s.inited := rfl
@[simp] theorem State.ret_armed (r : Return) : (s.ret r).armed = s.armed := rfl
@[simp] theorem State.ret_tickArmed (r : Return) : (s.ret r).tickArmed = s.tickArmed := rfl
@[simp] theorem State.ret_slot (r : Return) : (s.ret r).slot = s.slot := rfl
@[simp] theorem State.ret_q (r : Return) : (s.ret r).q = s.q := rfl
@[simp] theorem State.ret_chain (r : Return) : (s.ret r).chain = s.chain := rfl
@[simp] theorem State.ret_diodes (r : Return) : (s.ret r).diodes = s.diodes := rfl
@[simp] theorem State.ret_masks (r : Return) : (s.ret r).masks = s.masks := rfl
@[simp] theorem State.ret_stored (r : Return) : (s.ret r).stored = s.stored := rfl
@[simp] theorem State.ret_pendingTicks (r : Return) : (s.ret r).pendingTicks = s.pendingTicks := rfl
@[simp] theorem State.ret_errorLog (r : Return) : (s.ret r).errorLog = s.errorLog := rfl
@[simp] theorem State.ret_animator (r : Return) : (s.ret r).animator = s.animator := rfl
@[simp] theorem State.ret_returns (r : Return) : (s.ret r).returns = s.returns ++ [r] := rfl
@[simp] theorem State.ret_responses (r : Return) : (s.ret r).responses = s.responses := rfl
@[simp] theorem State.ret_frames (r : Return) : (s.ret r).frames = s.frames := rfl
@[simp] theorem State.ret_line (r : Return) : (s.ret r).line = s.line := rfl
@[simp] theorem State.ret_packets (r : Return) : (s.ret r).packets = s.packets := rfl
@[simp] theorem State.ret_animWork (r : Return) : (s.ret r).animWork = s.animWork := rfl
@[simp] theorem State.ret_armOk (r : Return) : (s.ret r).armOk = s.armOk := rfl
@[simp] theorem State.ret_inputs (r : Return) : (s.ret r).inputs = s.inputs := rfl
@[simp] theorem State.ret_issuer (r : Return) : (s.ret r).issuer = s.issuer := rfl
@[simp] theorem State.ret_turns (r : Return) : (s.ret r).turns = s.turns := rfl
@[simp] theorem State.ret_between (r : Return) : (s.ret r).between = s.between := rfl
@[simp] theorem State.ret_boots (r : Return) : (s.ret r).boots = s.boots := rfl

/-! ### State.log -/

@[simp] theorem State.log_inited (e : LogEntry) : (s.log e).inited = s.inited := rfl
@[simp] theorem State.log_armed (e : LogEntry) : (s.log e).armed = s.armed := rfl
@[simp] theorem State.log_tickArmed (e : LogEntry) : (s.log e).tickArmed = s.tickArmed := rfl
@[simp] theorem State.log_slot (e : LogEntry) : (s.log e).slot = s.slot := rfl
@[simp] theorem State.log_q (e : LogEntry) : (s.log e).q = s.q := rfl
@[simp] theorem State.log_chain (e : LogEntry) : (s.log e).chain = s.chain := rfl
@[simp] theorem State.log_diodes (e : LogEntry) : (s.log e).diodes = s.diodes := rfl
@[simp] theorem State.log_masks (e : LogEntry) : (s.log e).masks = s.masks := rfl
@[simp] theorem State.log_stored (e : LogEntry) : (s.log e).stored = s.stored := rfl
@[simp] theorem State.log_pendingTicks (e : LogEntry) : (s.log e).pendingTicks = s.pendingTicks := rfl
@[simp] theorem State.log_errorLog (e : LogEntry) : (s.log e).errorLog = s.errorLog ++ [e] := rfl
@[simp] theorem State.log_animator (e : LogEntry) : (s.log e).animator = s.animator := rfl
@[simp] theorem State.log_returns (e : LogEntry) : (s.log e).returns = s.returns := rfl
@[simp] theorem State.log_responses (e : LogEntry) : (s.log e).responses = s.responses := rfl
@[simp] theorem State.log_frames (e : LogEntry) : (s.log e).frames = s.frames := rfl
@[simp] theorem State.log_line (e : LogEntry) : (s.log e).line = s.line := rfl
@[simp] theorem State.log_packets (e : LogEntry) : (s.log e).packets = s.packets := rfl
@[simp] theorem State.log_animWork (e : LogEntry) : (s.log e).animWork = s.animWork := rfl
@[simp] theorem State.log_armOk (e : LogEntry) : (s.log e).armOk = s.armOk := rfl
@[simp] theorem State.log_inputs (e : LogEntry) : (s.log e).inputs = s.inputs := rfl
@[simp] theorem State.log_issuer (e : LogEntry) : (s.log e).issuer = s.issuer := rfl
@[simp] theorem State.log_turns (e : LogEntry) : (s.log e).turns = s.turns := rfl
@[simp] theorem State.log_between (e : LogEntry) : (s.log e).between = s.between := rfl
@[simp] theorem State.log_boots (e : LogEntry) : (s.log e).boots = s.boots := rfl

/-! ### State.respond -/

@[simp] theorem State.respond_inited (b0 b1 b2 b3 : Byte) : (s.respond b0 b1 b2 b3).inited = s.inited := rfl
@[simp] theorem State.respond_armed (b0 b1 b2 b3 : Byte) : (s.respond b0 b1 b2 b3).armed = s.armed := rfl
@[simp] theorem State.respond_tickArmed (b0 b1 b2 b3 : Byte) : (s.respond b0 b1 b2 b3).tickArmed = s.tickArmed := rfl
@[simp] theorem State.respond_slot (b0 b1 b2 b3 : Byte) : (s.respond b0 b1 b2 b3).slot = s.slot := rfl
@[simp] theorem State.respond_q (b0 b1 b2 b3 : Byte) : (s.respond b0 b1 b2 b3).q = s.q := rfl
@[simp] theorem State.respond_chain (b0 b1 b2 b3 : Byte) : (s.respond b0 b1 b2 b3).chain = s.chain := rfl
@[simp] theorem State.respond_diodes (b0 b1 b2 b3 : Byte) : (s.respond b0 b1 b2 b3).diodes = s.diodes := rfl
@[simp] theorem State.respond_masks (b0 b1 b2 b3 : Byte) : (s.respond b0 b1 b2 b3).masks = s.masks := rfl
@[simp] theorem State.respond_stored (b0 b1 b2 b3 : Byte) : (s.respond b0 b1 b2 b3).stored = s.stored := rfl
@[simp] theorem State.respond_pendingTicks (b0 b1 b2 b3 : Byte) : (s.respond b0 b1 b2 b3).pendingTicks = s.pendingTicks := rfl
@[simp] theorem State.respond_errorLog (b0 b1 b2 b3 : Byte) : (s.respond b0 b1 b2 b3).errorLog = s.errorLog := rfl
@[simp] theorem State.respond_animator (b0 b1 b2 b3 : Byte) : (s.respond b0 b1 b2 b3).animator = s.animator := rfl
@[simp] theorem State.respond_returns (b0 b1 b2 b3 : Byte) : (s.respond b0 b1 b2 b3).returns = s.returns := rfl
@[simp] theorem State.respond_responses (b0 b1 b2 b3 : Byte) : (s.respond b0 b1 b2 b3).responses = s.responses ++ [packetOfBytes b0 b1 b2 b3] := rfl
@[simp] theorem State.respond_frames (b0 b1 b2 b3 : Byte) : (s.respond b0 b1 b2 b3).frames = s.frames := rfl
@[simp] theorem State.respond_line (b0 b1 b2 b3 : Byte) : (s.respond b0 b1 b2 b3).line = s.line := rfl
@[simp] theorem State.respond_packets (b0 b1 b2 b3 : Byte) : (s.respond b0 b1 b2 b3).packets = s.packets := rfl
@[simp] theorem State.respond_animWork (b0 b1 b2 b3 : Byte) : (s.respond b0 b1 b2 b3).animWork = s.animWork := rfl
@[simp] theorem State.respond_armOk (b0 b1 b2 b3 : Byte) : (s.respond b0 b1 b2 b3).armOk = s.armOk := rfl
@[simp] theorem State.respond_inputs (b0 b1 b2 b3 : Byte) : (s.respond b0 b1 b2 b3).inputs = s.inputs := rfl
@[simp] theorem State.respond_issuer (b0 b1 b2 b3 : Byte) : (s.respond b0 b1 b2 b3).issuer = s.issuer := rfl
@[simp] theorem State.respond_turns (b0 b1 b2 b3 : Byte) : (s.respond b0 b1 b2 b3).turns = s.turns := rfl
@[simp] theorem State.respond_between (b0 b1 b2 b3 : Byte) : (s.respond b0 b1 b2 b3).between = s.between := rfl
@[simp] theorem State.respond_boots (b0 b1 b2 b3 : Byte) : (s.respond b0 b1 b2 b3).boots = s.boots := rfl

/-! ### State.raise -/

@[simp] theorem State.raise_inited (k : Command) (e : LogEntry) : (s.raise k e).inited = s.inited := rfl
@[simp] theorem State.raise_armed (k : Command) (e : LogEntry) : (s.raise k e).armed = s.armed := rfl
@[simp] theorem State.raise_tickArmed (k : Command) (e : LogEntry) : (s.raise k e).tickArmed = s.tickArmed := rfl
@[simp] theorem State.raise_slot (k : Command) (e : LogEntry) : (s.raise k e).slot = s.slot := rfl
@[simp] theorem State.raise_q (k : Command) (e : LogEntry) : (s.raise k e).q = s.q := rfl
@[simp] theorem State.raise_chain (k : Command) (e : LogEntry) : (s.raise k e).chain = s.chain := rfl
@[simp] theorem State.raise_diodes (k : Command) (e : LogEntry) : (s.raise k e).diodes = s.diodes := rfl
@[simp] theorem State.raise_masks (k : Command) (e : LogEntry) : (s.raise k e).masks = s.masks := rfl
@[simp] theorem State.raise_stored (k : Command) (e : LogEntry) : (s.raise k e).stored = s.stored := rfl
@[simp] theorem State.raise_pendingTicks (k : Command) (e : LogEntry) : (s.raise k e).pendingTicks = s.pendingTicks := rfl
@[simp] theorem State.raise_errorLog (k : Command) (e : LogEntry) : (s.raise k e).errorLog = s.errorLog ++ [e] := rfl
@[simp] theorem State.raise_animator (k : Command) (e : LogEntry) : (s.raise k e).animator = s.animator := rfl
@[simp] theorem State.raise_returns (k : Command) (e : LogEntry) : (s.raise k e).returns = s.returns ++ [.status k e.status] := rfl
@[simp] theorem State.raise_responses (k : Command) (e : LogEntry) : (s.raise k e).responses = s.responses := rfl
@[simp] theorem State.raise_frames (k : Command) (e : LogEntry) : (s.raise k e).frames = s.frames := rfl
@[simp] theorem State.raise_line (k : Command) (e : LogEntry) : (s.raise k e).line = s.line := rfl
@[simp] theorem State.raise_packets (k : Command) (e : LogEntry) : (s.raise k e).packets = s.packets := rfl
@[simp] theorem State.raise_animWork (k : Command) (e : LogEntry) : (s.raise k e).animWork = s.animWork := rfl
@[simp] theorem State.raise_armOk (k : Command) (e : LogEntry) : (s.raise k e).armOk = s.armOk := rfl
@[simp] theorem State.raise_inputs (k : Command) (e : LogEntry) : (s.raise k e).inputs = s.inputs := rfl
@[simp] theorem State.raise_issuer (k : Command) (e : LogEntry) : (s.raise k e).issuer = s.issuer := rfl
@[simp] theorem State.raise_turns (k : Command) (e : LogEntry) : (s.raise k e).turns = s.turns := rfl
@[simp] theorem State.raise_between (k : Command) (e : LogEntry) : (s.raise k e).between = s.between := rfl
@[simp] theorem State.raise_boots (k : Command) (e : LogEntry) : (s.raise k e).boots = s.boots := rfl

/-! ### State.succeed -/

@[simp] theorem State.succeed_inited (k : Command) : (s.succeed k).inited = s.inited := rfl
@[simp] theorem State.succeed_armed (k : Command) : (s.succeed k).armed = s.armed := rfl
@[simp] theorem State.succeed_tickArmed (k : Command) : (s.succeed k).tickArmed = s.tickArmed := rfl
@[simp] theorem State.succeed_slot (k : Command) : (s.succeed k).slot = s.slot := rfl
@[simp] theorem State.succeed_q (k : Command) : (s.succeed k).q = s.q := rfl
@[simp] theorem State.succeed_chain (k : Command) : (s.succeed k).chain = s.chain := rfl
@[simp] theorem State.succeed_diodes (k : Command) : (s.succeed k).diodes = s.diodes := rfl
@[simp] theorem State.succeed_masks (k : Command) : (s.succeed k).masks = s.masks := rfl
@[simp] theorem State.succeed_stored (k : Command) : (s.succeed k).stored = s.stored := rfl
@[simp] theorem State.succeed_pendingTicks (k : Command) : (s.succeed k).pendingTicks = s.pendingTicks := rfl
@[simp] theorem State.succeed_errorLog (k : Command) : (s.succeed k).errorLog = s.errorLog := rfl
@[simp] theorem State.succeed_animator (k : Command) : (s.succeed k).animator = s.animator := rfl
@[simp] theorem State.succeed_returns (k : Command) : (s.succeed k).returns = s.returns ++ [.status k .ok] := rfl
@[simp] theorem State.succeed_responses (k : Command) : (s.succeed k).responses = s.responses := rfl
@[simp] theorem State.succeed_frames (k : Command) : (s.succeed k).frames = s.frames := rfl
@[simp] theorem State.succeed_line (k : Command) : (s.succeed k).line = s.line := rfl
@[simp] theorem State.succeed_packets (k : Command) : (s.succeed k).packets = s.packets := rfl
@[simp] theorem State.succeed_animWork (k : Command) : (s.succeed k).animWork = s.animWork := rfl
@[simp] theorem State.succeed_armOk (k : Command) : (s.succeed k).armOk = s.armOk := rfl
@[simp] theorem State.succeed_inputs (k : Command) : (s.succeed k).inputs = s.inputs := rfl
@[simp] theorem State.succeed_issuer (k : Command) : (s.succeed k).issuer = s.issuer := rfl
@[simp] theorem State.succeed_turns (k : Command) : (s.succeed k).turns = s.turns := rfl
@[simp] theorem State.succeed_between (k : Command) : (s.succeed k).between = s.between := rfl
@[simp] theorem State.succeed_boots (k : Command) : (s.succeed k).boots = s.boots := rfl

/-! ### State.setDiode -/

@[simp] theorem State.setDiode_inited (c : Channel) (d : Diode) : (s.setDiode c d).inited = s.inited := rfl
@[simp] theorem State.setDiode_armed (c : Channel) (d : Diode) : (s.setDiode c d).armed = s.armed := rfl
@[simp] theorem State.setDiode_tickArmed (c : Channel) (d : Diode) : (s.setDiode c d).tickArmed = s.tickArmed := rfl
@[simp] theorem State.setDiode_slot (c : Channel) (d : Diode) : (s.setDiode c d).slot = s.slot := rfl
@[simp] theorem State.setDiode_q (c : Channel) (d : Diode) : (s.setDiode c d).q = s.q := rfl
@[simp] theorem State.setDiode_chain (c : Channel) (d : Diode) : (s.setDiode c d).chain = s.chain := rfl
@[simp] theorem State.setDiode_diodes (c : Channel) (d : Diode) : (s.setDiode c d).diodes = s.diodes.set c.val d := rfl
@[simp] theorem State.setDiode_masks (c : Channel) (d : Diode) : (s.setDiode c d).masks = s.masks := rfl
@[simp] theorem State.setDiode_stored (c : Channel) (d : Diode) : (s.setDiode c d).stored = s.stored := rfl
@[simp] theorem State.setDiode_pendingTicks (c : Channel) (d : Diode) : (s.setDiode c d).pendingTicks = s.pendingTicks := rfl
@[simp] theorem State.setDiode_errorLog (c : Channel) (d : Diode) : (s.setDiode c d).errorLog = s.errorLog := rfl
@[simp] theorem State.setDiode_animator (c : Channel) (d : Diode) : (s.setDiode c d).animator = s.animator := rfl
@[simp] theorem State.setDiode_returns (c : Channel) (d : Diode) : (s.setDiode c d).returns = s.returns := rfl
@[simp] theorem State.setDiode_responses (c : Channel) (d : Diode) : (s.setDiode c d).responses = s.responses := rfl
@[simp] theorem State.setDiode_frames (c : Channel) (d : Diode) : (s.setDiode c d).frames = s.frames := rfl
@[simp] theorem State.setDiode_line (c : Channel) (d : Diode) : (s.setDiode c d).line = s.line := rfl
@[simp] theorem State.setDiode_packets (c : Channel) (d : Diode) : (s.setDiode c d).packets = s.packets := rfl
@[simp] theorem State.setDiode_animWork (c : Channel) (d : Diode) : (s.setDiode c d).animWork = s.animWork := rfl
@[simp] theorem State.setDiode_armOk (c : Channel) (d : Diode) : (s.setDiode c d).armOk = s.armOk := rfl
@[simp] theorem State.setDiode_inputs (c : Channel) (d : Diode) : (s.setDiode c d).inputs = s.inputs := rfl
@[simp] theorem State.setDiode_issuer (c : Channel) (d : Diode) : (s.setDiode c d).issuer = s.issuer := rfl
@[simp] theorem State.setDiode_turns (c : Channel) (d : Diode) : (s.setDiode c d).turns = s.turns := rfl
@[simp] theorem State.setDiode_between (c : Channel) (d : Diode) : (s.setDiode c d).between = s.between := rfl
@[simp] theorem State.setDiode_boots (c : Channel) (d : Diode) : (s.setDiode c d).boots = s.boots := rfl

/-! ### State.setCur -/

@[simp] theorem State.setCur_inited (c : Channel) (v : Level) : (s.setCur c v).inited = s.inited := rfl
@[simp] theorem State.setCur_armed (c : Channel) (v : Level) : (s.setCur c v).armed = s.armed := rfl
@[simp] theorem State.setCur_tickArmed (c : Channel) (v : Level) : (s.setCur c v).tickArmed = s.tickArmed := rfl
@[simp] theorem State.setCur_slot (c : Channel) (v : Level) : (s.setCur c v).slot = s.slot := rfl
@[simp] theorem State.setCur_q (c : Channel) (v : Level) : (s.setCur c v).q = s.q := rfl
@[simp] theorem State.setCur_chain (c : Channel) (v : Level) : (s.setCur c v).chain = s.chain := rfl
@[simp] theorem State.setCur_diodes (c : Channel) (v : Level) : (s.setCur c v).diodes = s.diodes.set c.val { s.diode c with cur := v } := rfl
@[simp] theorem State.setCur_masks (c : Channel) (v : Level) : (s.setCur c v).masks = s.masks := rfl
@[simp] theorem State.setCur_stored (c : Channel) (v : Level) : (s.setCur c v).stored = s.stored := rfl
@[simp] theorem State.setCur_pendingTicks (c : Channel) (v : Level) : (s.setCur c v).pendingTicks = s.pendingTicks := rfl
@[simp] theorem State.setCur_errorLog (c : Channel) (v : Level) : (s.setCur c v).errorLog = s.errorLog := rfl
@[simp] theorem State.setCur_animator (c : Channel) (v : Level) : (s.setCur c v).animator = s.animator := rfl
@[simp] theorem State.setCur_returns (c : Channel) (v : Level) : (s.setCur c v).returns = s.returns := rfl
@[simp] theorem State.setCur_responses (c : Channel) (v : Level) : (s.setCur c v).responses = s.responses := rfl
@[simp] theorem State.setCur_frames (c : Channel) (v : Level) : (s.setCur c v).frames = s.frames := rfl
@[simp] theorem State.setCur_line (c : Channel) (v : Level) : (s.setCur c v).line = s.line := rfl
@[simp] theorem State.setCur_packets (c : Channel) (v : Level) : (s.setCur c v).packets = s.packets := rfl
@[simp] theorem State.setCur_animWork (c : Channel) (v : Level) : (s.setCur c v).animWork = s.animWork := rfl
@[simp] theorem State.setCur_armOk (c : Channel) (v : Level) : (s.setCur c v).armOk = s.armOk := rfl
@[simp] theorem State.setCur_inputs (c : Channel) (v : Level) : (s.setCur c v).inputs = s.inputs := rfl
@[simp] theorem State.setCur_issuer (c : Channel) (v : Level) : (s.setCur c v).issuer = s.issuer := rfl
@[simp] theorem State.setCur_turns (c : Channel) (v : Level) : (s.setCur c v).turns = s.turns := rfl
@[simp] theorem State.setCur_between (c : Channel) (v : Level) : (s.setCur c v).between = s.between := rfl
@[simp] theorem State.setCur_boots (c : Channel) (v : Level) : (s.setCur c v).boots = s.boots := rfl

/-! ### State.setTick -/

@[simp] theorem State.setTick_inited (c : Channel) (t : BitVec 32) : (s.setTick c t).inited = s.inited := rfl
@[simp] theorem State.setTick_armed (c : Channel) (t : BitVec 32) : (s.setTick c t).armed = s.armed := rfl
@[simp] theorem State.setTick_tickArmed (c : Channel) (t : BitVec 32) : (s.setTick c t).tickArmed = s.tickArmed := rfl
@[simp] theorem State.setTick_slot (c : Channel) (t : BitVec 32) : (s.setTick c t).slot = s.slot := rfl
@[simp] theorem State.setTick_q (c : Channel) (t : BitVec 32) : (s.setTick c t).q = s.q := rfl
@[simp] theorem State.setTick_chain (c : Channel) (t : BitVec 32) : (s.setTick c t).chain = s.chain := rfl
@[simp] theorem State.setTick_diodes (c : Channel) (t : BitVec 32) : (s.setTick c t).diodes = s.diodes.set c.val { s.diode c with tick := t } := rfl
@[simp] theorem State.setTick_masks (c : Channel) (t : BitVec 32) : (s.setTick c t).masks = s.masks := rfl
@[simp] theorem State.setTick_stored (c : Channel) (t : BitVec 32) : (s.setTick c t).stored = s.stored := rfl
@[simp] theorem State.setTick_pendingTicks (c : Channel) (t : BitVec 32) : (s.setTick c t).pendingTicks = s.pendingTicks := rfl
@[simp] theorem State.setTick_errorLog (c : Channel) (t : BitVec 32) : (s.setTick c t).errorLog = s.errorLog := rfl
@[simp] theorem State.setTick_animator (c : Channel) (t : BitVec 32) : (s.setTick c t).animator = s.animator := rfl
@[simp] theorem State.setTick_returns (c : Channel) (t : BitVec 32) : (s.setTick c t).returns = s.returns := rfl
@[simp] theorem State.setTick_responses (c : Channel) (t : BitVec 32) : (s.setTick c t).responses = s.responses := rfl
@[simp] theorem State.setTick_frames (c : Channel) (t : BitVec 32) : (s.setTick c t).frames = s.frames := rfl
@[simp] theorem State.setTick_line (c : Channel) (t : BitVec 32) : (s.setTick c t).line = s.line := rfl
@[simp] theorem State.setTick_packets (c : Channel) (t : BitVec 32) : (s.setTick c t).packets = s.packets := rfl
@[simp] theorem State.setTick_animWork (c : Channel) (t : BitVec 32) : (s.setTick c t).animWork = s.animWork := rfl
@[simp] theorem State.setTick_armOk (c : Channel) (t : BitVec 32) : (s.setTick c t).armOk = s.armOk := rfl
@[simp] theorem State.setTick_inputs (c : Channel) (t : BitVec 32) : (s.setTick c t).inputs = s.inputs := rfl
@[simp] theorem State.setTick_issuer (c : Channel) (t : BitVec 32) : (s.setTick c t).issuer = s.issuer := rfl
@[simp] theorem State.setTick_turns (c : Channel) (t : BitVec 32) : (s.setTick c t).turns = s.turns := rfl
@[simp] theorem State.setTick_between (c : Channel) (t : BitVec 32) : (s.setTick c t).between = s.between := rfl
@[simp] theorem State.setTick_boots (c : Channel) (t : BitVec 32) : (s.setTick c t).boots = s.boots := rfl

/-! ### State.setStored -/

@[simp] theorem State.setStored_inited (c : Channel) (v : Level) : (s.setStored c v).inited = s.inited := rfl
@[simp] theorem State.setStored_armed (c : Channel) (v : Level) : (s.setStored c v).armed = s.armed := rfl
@[simp] theorem State.setStored_tickArmed (c : Channel) (v : Level) : (s.setStored c v).tickArmed = s.tickArmed := rfl
@[simp] theorem State.setStored_slot (c : Channel) (v : Level) : (s.setStored c v).slot = s.slot := rfl
@[simp] theorem State.setStored_q (c : Channel) (v : Level) : (s.setStored c v).q = s.q := rfl
@[simp] theorem State.setStored_chain (c : Channel) (v : Level) : (s.setStored c v).chain = s.chain := rfl
@[simp] theorem State.setStored_diodes (c : Channel) (v : Level) : (s.setStored c v).diodes = s.diodes := rfl
@[simp] theorem State.setStored_masks (c : Channel) (v : Level) : (s.setStored c v).masks = s.masks := rfl
@[simp] theorem State.setStored_stored (c : Channel) (v : Level) : (s.setStored c v).stored = s.stored.set c.val v := rfl
@[simp] theorem State.setStored_pendingTicks (c : Channel) (v : Level) : (s.setStored c v).pendingTicks = s.pendingTicks := rfl
@[simp] theorem State.setStored_errorLog (c : Channel) (v : Level) : (s.setStored c v).errorLog = s.errorLog := rfl
@[simp] theorem State.setStored_animator (c : Channel) (v : Level) : (s.setStored c v).animator = s.animator := rfl
@[simp] theorem State.setStored_returns (c : Channel) (v : Level) : (s.setStored c v).returns = s.returns := rfl
@[simp] theorem State.setStored_responses (c : Channel) (v : Level) : (s.setStored c v).responses = s.responses := rfl
@[simp] theorem State.setStored_frames (c : Channel) (v : Level) : (s.setStored c v).frames = s.frames := rfl
@[simp] theorem State.setStored_line (c : Channel) (v : Level) : (s.setStored c v).line = s.line := rfl
@[simp] theorem State.setStored_packets (c : Channel) (v : Level) : (s.setStored c v).packets = s.packets := rfl
@[simp] theorem State.setStored_animWork (c : Channel) (v : Level) : (s.setStored c v).animWork = s.animWork := rfl
@[simp] theorem State.setStored_armOk (c : Channel) (v : Level) : (s.setStored c v).armOk = s.armOk := rfl
@[simp] theorem State.setStored_inputs (c : Channel) (v : Level) : (s.setStored c v).inputs = s.inputs := rfl
@[simp] theorem State.setStored_issuer (c : Channel) (v : Level) : (s.setStored c v).issuer = s.issuer := rfl
@[simp] theorem State.setStored_turns (c : Channel) (v : Level) : (s.setStored c v).turns = s.turns := rfl
@[simp] theorem State.setStored_between (c : Channel) (v : Level) : (s.setStored c v).between = s.between := rfl
@[simp] theorem State.setStored_boots (c : Channel) (v : Level) : (s.setStored c v).boots = s.boots := rfl

/-! ### State.setColumn -/

@[simp] theorem State.setColumn_inited (c : Channel) (w : Pattern) : (s.setColumn c w).inited = s.inited := rfl
@[simp] theorem State.setColumn_armed (c : Channel) (w : Pattern) : (s.setColumn c w).armed = s.armed := rfl
@[simp] theorem State.setColumn_tickArmed (c : Channel) (w : Pattern) : (s.setColumn c w).tickArmed = s.tickArmed := rfl
@[simp] theorem State.setColumn_slot (c : Channel) (w : Pattern) : (s.setColumn c w).slot = s.slot := rfl
@[simp] theorem State.setColumn_q (c : Channel) (w : Pattern) : (s.setColumn c w).q = s.q := rfl
@[simp] theorem State.setColumn_chain (c : Channel) (w : Pattern) : (s.setColumn c w).chain = s.chain := rfl
@[simp] theorem State.setColumn_diodes (c : Channel) (w : Pattern) : (s.setColumn c w).diodes = s.diodes := rfl
@[simp] theorem State.setColumn_masks (c : Channel) (w : Pattern) : (s.setColumn c w).masks = writeColumn s.masks c w := rfl
@[simp] theorem State.setColumn_stored (c : Channel) (w : Pattern) : (s.setColumn c w).stored = s.stored := rfl
@[simp] theorem State.setColumn_pendingTicks (c : Channel) (w : Pattern) : (s.setColumn c w).pendingTicks = s.pendingTicks := rfl
@[simp] theorem State.setColumn_errorLog (c : Channel) (w : Pattern) : (s.setColumn c w).errorLog = s.errorLog := rfl
@[simp] theorem State.setColumn_animator (c : Channel) (w : Pattern) : (s.setColumn c w).animator = s.animator := rfl
@[simp] theorem State.setColumn_returns (c : Channel) (w : Pattern) : (s.setColumn c w).returns = s.returns := rfl
@[simp] theorem State.setColumn_responses (c : Channel) (w : Pattern) : (s.setColumn c w).responses = s.responses := rfl
@[simp] theorem State.setColumn_frames (c : Channel) (w : Pattern) : (s.setColumn c w).frames = s.frames := rfl
@[simp] theorem State.setColumn_line (c : Channel) (w : Pattern) : (s.setColumn c w).line = s.line := rfl
@[simp] theorem State.setColumn_packets (c : Channel) (w : Pattern) : (s.setColumn c w).packets = s.packets := rfl
@[simp] theorem State.setColumn_animWork (c : Channel) (w : Pattern) : (s.setColumn c w).animWork = s.animWork := rfl
@[simp] theorem State.setColumn_armOk (c : Channel) (w : Pattern) : (s.setColumn c w).armOk = s.armOk := rfl
@[simp] theorem State.setColumn_inputs (c : Channel) (w : Pattern) : (s.setColumn c w).inputs = s.inputs := rfl
@[simp] theorem State.setColumn_issuer (c : Channel) (w : Pattern) : (s.setColumn c w).issuer = s.issuer := rfl
@[simp] theorem State.setColumn_turns (c : Channel) (w : Pattern) : (s.setColumn c w).turns = s.turns := rfl
@[simp] theorem State.setColumn_between (c : Channel) (w : Pattern) : (s.setColumn c w).between = s.between := rfl
@[simp] theorem State.setColumn_boots (c : Channel) (w : Pattern) : (s.setColumn c w).boots = s.boots := rfl

/-! ### State.bufWriteBit -/

@[simp] theorem State.bufWriteBit_inited (j : Slot) (c : Channel) (b : Bool) : (s.bufWriteBit j c b).inited = s.inited := rfl
@[simp] theorem State.bufWriteBit_armed (j : Slot) (c : Channel) (b : Bool) : (s.bufWriteBit j c b).armed = s.armed := rfl
@[simp] theorem State.bufWriteBit_tickArmed (j : Slot) (c : Channel) (b : Bool) : (s.bufWriteBit j c b).tickArmed = s.tickArmed := rfl
@[simp] theorem State.bufWriteBit_slot (j : Slot) (c : Channel) (b : Bool) : (s.bufWriteBit j c b).slot = s.slot := rfl
@[simp] theorem State.bufWriteBit_q (j : Slot) (c : Channel) (b : Bool) : (s.bufWriteBit j c b).q = s.q := rfl
@[simp] theorem State.bufWriteBit_chain (j : Slot) (c : Channel) (b : Bool) : (s.bufWriteBit j c b).chain = s.chain := rfl
@[simp] theorem State.bufWriteBit_diodes (j : Slot) (c : Channel) (b : Bool) : (s.bufWriteBit j c b).diodes = s.diodes := rfl
@[simp] theorem State.bufWriteBit_masks (j : Slot) (c : Channel) (b : Bool) : (s.bufWriteBit j c b).masks = s.masks.set j.val (writeMaskBit (s.bufRead j) c b) := rfl
@[simp] theorem State.bufWriteBit_stored (j : Slot) (c : Channel) (b : Bool) : (s.bufWriteBit j c b).stored = s.stored := rfl
@[simp] theorem State.bufWriteBit_pendingTicks (j : Slot) (c : Channel) (b : Bool) : (s.bufWriteBit j c b).pendingTicks = s.pendingTicks := rfl
@[simp] theorem State.bufWriteBit_errorLog (j : Slot) (c : Channel) (b : Bool) : (s.bufWriteBit j c b).errorLog = s.errorLog := rfl
@[simp] theorem State.bufWriteBit_animator (j : Slot) (c : Channel) (b : Bool) : (s.bufWriteBit j c b).animator = s.animator := rfl
@[simp] theorem State.bufWriteBit_returns (j : Slot) (c : Channel) (b : Bool) : (s.bufWriteBit j c b).returns = s.returns := rfl
@[simp] theorem State.bufWriteBit_responses (j : Slot) (c : Channel) (b : Bool) : (s.bufWriteBit j c b).responses = s.responses := rfl
@[simp] theorem State.bufWriteBit_frames (j : Slot) (c : Channel) (b : Bool) : (s.bufWriteBit j c b).frames = s.frames := rfl
@[simp] theorem State.bufWriteBit_line (j : Slot) (c : Channel) (b : Bool) : (s.bufWriteBit j c b).line = s.line := rfl
@[simp] theorem State.bufWriteBit_packets (j : Slot) (c : Channel) (b : Bool) : (s.bufWriteBit j c b).packets = s.packets := rfl
@[simp] theorem State.bufWriteBit_animWork (j : Slot) (c : Channel) (b : Bool) : (s.bufWriteBit j c b).animWork = s.animWork := rfl
@[simp] theorem State.bufWriteBit_armOk (j : Slot) (c : Channel) (b : Bool) : (s.bufWriteBit j c b).armOk = s.armOk := rfl
@[simp] theorem State.bufWriteBit_inputs (j : Slot) (c : Channel) (b : Bool) : (s.bufWriteBit j c b).inputs = s.inputs := rfl
@[simp] theorem State.bufWriteBit_issuer (j : Slot) (c : Channel) (b : Bool) : (s.bufWriteBit j c b).issuer = s.issuer := rfl
@[simp] theorem State.bufWriteBit_turns (j : Slot) (c : Channel) (b : Bool) : (s.bufWriteBit j c b).turns = s.turns := rfl
@[simp] theorem State.bufWriteBit_between (j : Slot) (c : Channel) (b : Bool) : (s.bufWriteBit j c b).between = s.between := rfl
@[simp] theorem State.bufWriteBit_boots (j : Slot) (c : Channel) (b : Bool) : (s.bufWriteBit j c b).boots = s.boots := rfl

/-! ### State.stopFields -/

@[simp] theorem State.stopFields_inited : (s.stopFields).inited = s.inited := rfl
@[simp] theorem State.stopFields_armed : (s.stopFields).armed = s.armed := rfl
@[simp] theorem State.stopFields_tickArmed : (s.stopFields).tickArmed = s.tickArmed := rfl
@[simp] theorem State.stopFields_slot : (s.stopFields).slot = s.slot := rfl
@[simp] theorem State.stopFields_q : (s.stopFields).q = s.q := rfl
@[simp] theorem State.stopFields_chain : (s.stopFields).chain = s.chain := rfl
@[simp] theorem State.stopFields_diodes : (s.stopFields).diodes = s.diodes := rfl
@[simp] theorem State.stopFields_masks : (s.stopFields).masks = s.masks := rfl
@[simp] theorem State.stopFields_stored : (s.stopFields).stored = s.stored := rfl
@[simp] theorem State.stopFields_pendingTicks : (s.stopFields).pendingTicks = s.pendingTicks := rfl
@[simp] theorem State.stopFields_errorLog : (s.stopFields).errorLog = s.errorLog := rfl
@[simp] theorem State.stopFields_animator : (s.stopFields).animator = { s.animator with playing := false, progress := 1 } := rfl
@[simp] theorem State.stopFields_returns : (s.stopFields).returns = s.returns := rfl
@[simp] theorem State.stopFields_responses : (s.stopFields).responses = s.responses := rfl
@[simp] theorem State.stopFields_frames : (s.stopFields).frames = s.frames := rfl
@[simp] theorem State.stopFields_line : (s.stopFields).line = s.line := rfl
@[simp] theorem State.stopFields_packets : (s.stopFields).packets = s.packets := rfl
@[simp] theorem State.stopFields_animWork : (s.stopFields).animWork = s.animWork := rfl
@[simp] theorem State.stopFields_armOk : (s.stopFields).armOk = s.armOk := rfl
@[simp] theorem State.stopFields_inputs : (s.stopFields).inputs = s.inputs := rfl
@[simp] theorem State.stopFields_issuer : (s.stopFields).issuer = s.issuer := rfl
@[simp] theorem State.stopFields_turns : (s.stopFields).turns = s.turns := rfl
@[simp] theorem State.stopFields_between : (s.stopFields).between = s.between := rfl
@[simp] theorem State.stopFields_boots : (s.stopFields).boots = s.boots := rfl

/-! ### State.queueFrame -/

@[simp] theorem State.queueFrame_inited (fr : List (Channel × LevelOperand)) : (s.queueFrame fr).inited = s.inited := rfl
@[simp] theorem State.queueFrame_armed (fr : List (Channel × LevelOperand)) : (s.queueFrame fr).armed = s.armed := rfl
@[simp] theorem State.queueFrame_tickArmed (fr : List (Channel × LevelOperand)) : (s.queueFrame fr).tickArmed = s.tickArmed := rfl
@[simp] theorem State.queueFrame_slot (fr : List (Channel × LevelOperand)) : (s.queueFrame fr).slot = s.slot := rfl
@[simp] theorem State.queueFrame_q (fr : List (Channel × LevelOperand)) : (s.queueFrame fr).q = s.q := rfl
@[simp] theorem State.queueFrame_chain (fr : List (Channel × LevelOperand)) : (s.queueFrame fr).chain = s.chain := rfl
@[simp] theorem State.queueFrame_diodes (fr : List (Channel × LevelOperand)) : (s.queueFrame fr).diodes = s.diodes := rfl
@[simp] theorem State.queueFrame_masks (fr : List (Channel × LevelOperand)) : (s.queueFrame fr).masks = s.masks := rfl
@[simp] theorem State.queueFrame_stored (fr : List (Channel × LevelOperand)) : (s.queueFrame fr).stored = s.stored := rfl
@[simp] theorem State.queueFrame_pendingTicks (fr : List (Channel × LevelOperand)) : (s.queueFrame fr).pendingTicks = s.pendingTicks := rfl
@[simp] theorem State.queueFrame_errorLog (fr : List (Channel × LevelOperand)) : (s.queueFrame fr).errorLog = s.errorLog := rfl
@[simp] theorem State.queueFrame_animator (fr : List (Channel × LevelOperand)) : (s.queueFrame fr).animator = s.animator := rfl
@[simp] theorem State.queueFrame_returns (fr : List (Channel × LevelOperand)) : (s.queueFrame fr).returns = s.returns := rfl
@[simp] theorem State.queueFrame_responses (fr : List (Channel × LevelOperand)) : (s.queueFrame fr).responses = s.responses := rfl
@[simp] theorem State.queueFrame_frames (fr : List (Channel × LevelOperand)) : (s.queueFrame fr).frames = s.frames := rfl
@[simp] theorem State.queueFrame_line (fr : List (Channel × LevelOperand)) : (s.queueFrame fr).line = s.line := rfl
@[simp] theorem State.queueFrame_packets (fr : List (Channel × LevelOperand)) : (s.queueFrame fr).packets = s.packets := rfl
@[simp] theorem State.queueFrame_animWork (fr : List (Channel × LevelOperand)) : (s.queueFrame fr).animWork = fr.map (fun x => AnimStep.set x.1 x.2) ++ s.animWork := rfl
@[simp] theorem State.queueFrame_armOk (fr : List (Channel × LevelOperand)) : (s.queueFrame fr).armOk = s.armOk := rfl
@[simp] theorem State.queueFrame_inputs (fr : List (Channel × LevelOperand)) : (s.queueFrame fr).inputs = s.inputs := rfl
@[simp] theorem State.queueFrame_issuer (fr : List (Channel × LevelOperand)) : (s.queueFrame fr).issuer = s.issuer := rfl
@[simp] theorem State.queueFrame_turns (fr : List (Channel × LevelOperand)) : (s.queueFrame fr).turns = s.turns := rfl
@[simp] theorem State.queueFrame_between (fr : List (Channel × LevelOperand)) : (s.queueFrame fr).between = s.between := rfl
@[simp] theorem State.queueFrame_boots (fr : List (Channel × LevelOperand)) : (s.queueFrame fr).boots = s.boots := rfl

end Sys2Proof.Machine
end

