-- ==== Sys2Proof/Laws/Ops.lean ====
section
/-! SUPPORT. For each shared operation, what it can do, said once: the later proofs cite these and do not unfold. -/

namespace Sys2Proof.Machine

variable (s : State)

/-! ### Reads after writes: the diode file -/

theorem State.diode_setDiode (c c' : Channel) (d : Diode) :
    (s.setDiode c d).diode c' = if c' = c then d else s.diode c' := by
  simp only [State.diode, State.setDiode, Vector.getElem_set, Fin.ext_iff, eq_comm]

@[simp] theorem State.diode_setDiode_self (c : Channel) (d : Diode) :
    (s.setDiode c d).diode c = d := by
  simp [State.diode_setDiode]

theorem State.diode_setDiode_of_ne {c c' : Channel} (h : c' ≠ c) (d : Diode) :
    (s.setDiode c d).diode c' = s.diode c' := by
  simp [State.diode_setDiode, h]

theorem State.diode_setCur (c c' : Channel) (v : Level) :
    (s.setCur c v).diode c' = if c' = c then { s.diode c with cur := v } else s.diode c' :=
  s.diode_setDiode c c' _

theorem State.diode_setTick (c c' : Channel) (t : BitVec 32) :
    (s.setTick c t).diode c' = if c' = c then { s.diode c with tick := t } else s.diode c' :=
  s.diode_setDiode c c' _

@[simp] theorem State.diode_ret (r : Return) (c : Channel) : (s.ret r).diode c = s.diode c := rfl
@[simp] theorem State.diode_log (e : LogEntry) (c : Channel) : (s.log e).diode c = s.diode c := rfl
@[simp] theorem State.diode_succeed (k : Command) (c : Channel) : (s.succeed k).diode c = s.diode c := rfl
@[simp] theorem State.diode_raise (k : Command) (e : LogEntry) (c : Channel) :
    (s.raise k e).diode c = s.diode c := rfl
@[simp] theorem State.diode_setStored (c c' : Channel) (v : Level) :
    (s.setStored c v).diode c' = s.diode c' := rfl
@[simp] theorem State.diode_bufWriteBit (j : Slot) (c c' : Channel) (b : Bool) :
    (s.bufWriteBit j c b).diode c' = s.diode c' := rfl
@[simp] theorem State.diode_setColumn (c c' : Channel) (w : Pattern) :
    (s.setColumn c w).diode c' = s.diode c' := rfl

/-! ### Reads after writes: the buffer -/

@[simp] theorem State.bufRead_ret (r : Return) (j : Slot) : (s.ret r).bufRead j = s.bufRead j := rfl
@[simp] theorem State.bufRead_log (e : LogEntry) (j : Slot) : (s.log e).bufRead j = s.bufRead j := rfl
@[simp] theorem State.bufRead_succeed (k : Command) (j : Slot) :
    (s.succeed k).bufRead j = s.bufRead j := rfl
@[simp] theorem State.bufRead_raise (k : Command) (e : LogEntry) (j : Slot) :
    (s.raise k e).bufRead j = s.bufRead j := rfl
@[simp] theorem State.bufRead_setDiode (c : Channel) (d : Diode) (j : Slot) :
    (s.setDiode c d).bufRead j = s.bufRead j := rfl
@[simp] theorem State.bufRead_setTick (c : Channel) (t : BitVec 32) (j : Slot) :
    (s.setTick c t).bufRead j = s.bufRead j := rfl
@[simp] theorem State.bufRead_setStored (c : Channel) (v : Level) (j : Slot) :
    (s.setStored c v).bufRead j = s.bufRead j := rfl

/-- A mask bit write writes that bit and keeps the other 23. -/
theorem writeMaskBit_getLsbD (m : Mask) (c c' : Channel) (b : Bool) :
    (writeMaskBit m c b).getLsbD c'.val = if c' = c then b else m.getLsbD c'.val := by
  have hc' : c'.val < 24 := c'.isLt
  by_cases h : c' = c
  · subst h
    cases b <;> simp [writeMaskBit]
  · have hv : c'.val ≠ c.val := fun e => h (Fin.ext e)
    have hz : (1#24 <<< c.val).getLsbD c'.val = false := by
      simp only [BitVec.getLsbD_shiftLeft, BitVec.getLsbD_one, Bool.and_eq_false_imp, Bool.not_eq_true',
        decide_eq_false_iff_not, Bool.and_eq_true]
      omega
    cases b
    · rw [writeMaskBit, if_neg (by simp), BitVec.getLsbD_and, BitVec.getLsbD_not, hz]
      simp [h]
    · rw [writeMaskBit, if_pos rfl, BitVec.getLsbD_or, hz]
      simp [h]

@[simp] theorem tabulate_getElem {α : Type} (n : Nat) (f : Fin n → α) (i : Nat) (h : i < n) :
    (tabulate n f)[i] = f ⟨i, h⟩ := by
  simp [tabulate]

theorem writeColumn_getElem (m : Vector Mask 63) (c : Channel) (w : Pattern) (j : Slot) :
    (writeColumn m c w)[j.val] = writeMaskBit m[j.val] c (w.getLsbD j.val) := by
  simp [writeColumn]

theorem State.bufRead_bufWriteBit (j j' : Slot) (c : Channel) (b : Bool) :
    (s.bufWriteBit j c b).bufRead j' =
      if j' = j then writeMaskBit (s.bufRead j) c b else s.bufRead j' := by
  simp only [State.bufRead, State.bufWriteBit, Vector.getElem_set, Fin.ext_iff, eq_comm]

/-! ### The serial stage -/

/-- Twenty-four shifts replace the whole serial stage: after a frame it holds the mask (R112). -/
theorem shiftFrame_eq (r m : Mask) : shiftFrame r m = m := by
  have key : ∀ (k : Nat) (hk : k ≤ 24),
      (((List.finRange 24).map fun i => m.getLsbD (23 - i.val)).take k).foldl shiftIn r
        = (r <<< k) ||| (m >>> (24 - k)) := by
    intro k
    induction k with
    | zero =>
      intro _
      ext i hi
      simp
    | succ k ih =>
      intro hk
      have hk' : k ≤ 24 := by omega
      rw [List.take_add_one, List.foldl_append, ih hk']
      have hget : ((List.finRange 24).map fun i => m.getLsbD (23 - i.val))[k]? = some (m.getLsbD (23 - k)) := by
        have : k < 24 := by omega
        simp [this]
      rw [hget]
      ext i hi
      simp only [Option.toList_some, List.foldl_cons, List.foldl_nil, shiftIn, BitVec.getElem_or,
        BitVec.getElem_shiftLeft, BitVec.getElem_setWidth, BitVec.getLsbD_ofBool,
        BitVec.getElem_ushiftRight]
      by_cases h0 : i = 0
      · subst h0
        have e : 24 - (k + 1) + 0 = 23 - k := by omega
        simp only [e]
        simp
      · have h1 : ¬ i < 1 := by omega
        have e : 24 - k + (i - 1) = 24 - (k + 1) + i := by omega
        by_cases h2 : i < k + 1
        · have h3 : i - 1 < k := by omega
          simp [h0, h1, h2, h3, e]
        · have h3 : ¬ i - 1 < k := by omega
          have e2 : i - 1 - k = i - (k + 1) := by omega
          simp [h0, h1, h2, h3, e, e2]
  have h := key 24 (le_refl _)
  have hlen : ((List.finRange 24).map fun i => m.getLsbD (23 - i.val)).take 24
      = (List.finRange 24).map fun i => m.getLsbD (23 - i.val) := by
    apply List.take_of_length_le; simp
  rw [hlen] at h
  rw [shiftFrame, frameBits, h]
  ext i hi
  simp

/-! ### SLOT and the pulses inside a column write -/

/-- `t` is `s` but for what pulses do: the output driver's fields, the held ticks, and the gaps used up. -/
def State.sameButPulses (s t : State) : Prop :=
  t = { s with
        slot := t.slot, q := t.q, chain := t.chain, frames := t.frames, line := t.line,
        pendingTicks := t.pendingTicks, between := t.between }

theorem State.sameButPulses_refl : s.sameButPulses s := rfl

theorem State.sameButPulses_trans {s t u : State} (h : s.sameButPulses t) (k : t.sameButPulses u) :
    s.sameButPulses u := by
  unfold State.sameButPulses at *
  rw [k, h]

/-- What SLOT can do: present the mask of its slot when armed, nothing otherwise (R110, R112, R114). -/
theorem State.slotStep_cases :
    (s.armed = false ∧ s.slotStep = s) ∨
    (s.armed = true ∧
      s.slotStep =
        { s with
          frames := s.frames ++ [⟨s.slot, s.bufRead s.slot⟩]
          line := s.line ++ (frameBits (s.bufRead s.slot)).map LinePulse.bit ++ [LinePulse.latch]
          chain := s.bufRead s.slot
          q := s.bufRead s.slot
          slot := s.slot + 1 }) := by
  cases h : s.armed
  · exact .inl ⟨rfl, by simp [State.slotStep, h]⟩
  · exact .inr ⟨rfl, by simp [State.slotStep, h, shiftFrame_eq]⟩

theorem State.slotStep_sameButPulses : s.sameButPulses s.slotStep := by
  obtain ⟨_, h⟩ | ⟨_, h⟩ := s.slotStep_cases <;> rw [h] <;> rfl

theorem State.strobe_sameButPulses (x : Strobe) : s.sameButPulses (s.strobe x) := by
  cases x
  · exact s.slotStep_sameButPulses
  · rfl

theorem State.strobes_sameButPulses (xs : List Strobe) (s : State) :
    s.sameButPulses (xs.foldl State.strobe s) := by
  induction xs generalizing s with
  | nil => rfl
  | cons x xs ih => exact State.sameButPulses_trans (s.strobe_sameButPulses x) (ih _)

theorem State.nextGap_sameButPulses : s.sameButPulses s.nextGap := by
  unfold State.nextGap
  split
  · rfl
  · exact State.sameButPulses_trans (by rfl) (State.strobes_sameButPulses _ _)

theorem State.sameButPulses.diodes_eq {s t : State} (h : s.sameButPulses t) : t.diodes = s.diodes := by
  unfold State.sameButPulses at h; rw [h]

theorem State.sameButPulses.masks_eq {s t : State} (h : s.sameButPulses t) : t.masks = s.masks := by
  unfold State.sameButPulses at h; rw [h]

/-! ### Apply -/

/-- `t` is `s` but for the buffer and what pulses do. -/
def State.sameButMasks (s t : State) : Prop :=
  t = { s with
        masks := t.masks, slot := t.slot, q := t.q, chain := t.chain, frames := t.frames,
        line := t.line, pendingTicks := t.pendingTicks, between := t.between }

theorem State.applyBit_sameButMasks (c : Channel) (w : Pattern) (j : Slot) :
    s.sameButMasks (State.applyBit c w s j) := by
  have h := s.nextGap_sameButPulses
  unfold State.sameButPulses at h
  unfold State.applyBit State.sameButMasks
  rw [h]
  rfl

theorem State.applyBits_sameButMasks (c : Channel) (w : Pattern) (js : List Slot) (s : State) :
    s.sameButMasks (js.foldl (State.applyBit c w) s) := by
  induction js generalizing s with
  | nil => rfl
  | cons j js ih =>
    have h₁ := s.applyBit_sameButMasks c w j
    have h₂ := ih (State.applyBit c w s j)
    unfold State.sameButMasks at *
    rw [List.foldl_cons, h₂, h₁]

/-- The single-bit writes, whatever falls between them: the masks listed have the bit, the others stand. -/
theorem State.bufRead_applyBits (c : Channel) (w : Pattern) (js : List Slot) (s : State) (j : Slot) :
    (js.foldl (State.applyBit c w) s).bufRead j =
      if j ∈ js then writeMaskBit (s.bufRead j) c (w.getLsbD j.val) else s.bufRead j := by
  have gap (s : State) (j : Slot) : s.nextGap.bufRead j = s.bufRead j := by
    simp [State.bufRead, s.nextGap_sameButPulses.masks_eq]
  have twice (m : Mask) (b : Bool) : writeMaskBit (writeMaskBit m c b) c b = writeMaskBit m c b := by
    cases b <;> simp [writeMaskBit, BitVec.or_assoc, BitVec.and_assoc]
  induction js generalizing s with
  | nil => simp
  | cons k js ih =>
    rw [List.foldl_cons, ih]
    simp only [State.applyBit, State.bufRead_bufWriteBit, gap]
    by_cases hk : j = k
    · subst hk
      by_cases hj : j ∈ js <;> simp [hj, twice]
    · by_cases hj : j ∈ js <;> simp [hk, hj]

/-- The whole column, in one step or bit by bit: the same buffer. -/
theorem State.applyBitwise_masks (c : Channel) (v : Level) :
    (s.applyBitwise c v).masks = writeColumn s.masks c (lookup v) := by
  apply Vector.ext
  intro j hj
  have h := State.bufRead_applyBits c (lookup v) (List.finRange 63) s ⟨j, hj⟩
  rw [if_pos (List.mem_finRange _)] at h
  have h' : (writeColumn s.masks c (lookup v))[j] = writeMaskBit s.masks[j] c ((lookup v).getLsbD j) :=
    writeColumn_getElem s.masks c (lookup v) ⟨j, hj⟩
  rw [h']
  simp only [State.applyBitwise, State.setCur_masks, (State.nextGap_sameButPulses _).masks_eq]
  exact h

theorem State.applyBitwise_diodes (c : Channel) (v : Level) :
    (s.applyBitwise c v).diodes = s.diodes.set c.val { s.diode c with cur := v } := by
  have h := State.applyBits_sameButMasks c (lookup v) (List.finRange 63) s
  have hd : ((List.finRange 63).foldl (State.applyBit c (lookup v)) s).diodes = s.diodes := by
    unfold State.sameButMasks at h; rw [h]
  simp [State.applyBitwise, State.diode, (State.nextGap_sameButPulses _).diodes_eq, hd]

theorem State.applyBitwise_frame (c : Channel) (v : Level) :
    (s.applyBitwise c v) =
      { s with
        diodes := (s.applyBitwise c v).diodes, masks := (s.applyBitwise c v).masks
        slot := (s.applyBitwise c v).slot, q := (s.applyBitwise c v).q
        chain := (s.applyBitwise c v).chain, frames := (s.applyBitwise c v).frames
        line := (s.applyBitwise c v).line, pendingTicks := (s.applyBitwise c v).pendingTicks
        between := (s.applyBitwise c v).between } := by
  have h₁ := State.applyBits_sameButMasks c (lookup v) (List.finRange 63) s
  have h₂ := State.nextGap_sameButPulses ((List.finRange 63).foldl (State.applyBit c (lookup v)) s)
  unfold State.applyBitwise
  generalize (List.finRange 63).foldl (State.applyBit c (lookup v)) s = u at h₁ h₂ ⊢
  generalize u.nextGap = g at h₂ ⊢
  unfold State.sameButMasks at h₁
  unfold State.sameButPulses at h₂
  rw [h₂, h₁]
  rfl

theorem State.applyWhole_diodes (c : Channel) (v : Level) :
    (s.applyWhole c v).diodes = s.diodes.set c.val { s.diode c with cur := v } := by
  rw [State.applyWhole, State.setCur_diodes, State.setColumn_diodes, State.diode_setColumn]

theorem State.applyWhole_masks (c : Channel) (v : Level) :
    (s.applyWhole c v).masks = writeColumn s.masks c (lookup v) := by
  rw [State.applyWhole, State.setCur_masks, State.setColumn_masks]

theorem State.applyWhole_sameButEngine (c : Channel) (v : Level) :
    s.sameButEngine (s.applyWhole c v) := rfl

/-- The two ways an Apply is made; bit by bit only where something falls inside it. -/
theorem State.applyWith_cases (atomic : Bool) (c : Channel) (v : Level) :
    s.applyWith atomic c v = s.applyWhole c v ∨
    (s.between ≠ [] ∧ s.applyWith atomic c v = s.applyBitwise c v) := by
  unfold State.applyWith
  split
  · exact .inl rfl
  · rename_i h
    cases atomic
    · exact .inr ⟨by simp [h], if_neg (by simp)⟩
    · exact .inl (if_pos rfl)

/-- Apply, whatever `APPLY_ATOMIC` is: the record of the channel has the level (R80). -/
theorem State.applyWith_diodes (atomic : Bool) (c : Channel) (v : Level) :
    (s.applyWith atomic c v).diodes = s.diodes.set c.val { s.diode c with cur := v } := by
  obtain h | ⟨_, h⟩ := s.applyWith_cases atomic c v <;> rw [h]
  · exact s.applyWhole_diodes c v
  · exact s.applyBitwise_diodes c v

/-- Apply, whatever `APPLY_ATOMIC` is: the column has the pattern (R80). -/
theorem State.applyWith_masks (atomic : Bool) (c : Channel) (v : Level) :
    (s.applyWith atomic c v).masks = writeColumn s.masks c (lookup v) := by
  obtain h | ⟨_, h⟩ := s.applyWith_cases atomic c v <;> rw [h]
  · exact s.applyWhole_masks c v
  · exact s.applyBitwise_masks c v

/-- Apply leaves everything else alone, but for what pulses inside it do. -/
theorem State.applyWith_frame (atomic : Bool) (c : Channel) (v : Level) :
    s.sameButColumnWrite (s.applyWith atomic c v) := by
  obtain h | ⟨hb, h⟩ := s.applyWith_cases atomic c v <;> rw [h]
  · exact ⟨rfl, fun _ => s.applyWhole_sameButEngine c v⟩
  · exact ⟨s.applyBitwise_frame c v, fun hn => absurd hn hb⟩

/-! ### What an Apply does not look at -/

/-- The state with what is remembered, in progress, returned and next to move replaced: no Apply looks at these. -/
def State.withReports (s : State) (stored : Vector Level 24) (packets : List SetAll) (returns : List Return)
    (turns : List Turn) : State :=
  { s with stored := stored, packets := packets, returns := returns, turns := turns }

section
variable (st : Vector Level 24) (ps : List SetAll) (rs : List Return) (ts : List Turn)

theorem State.strobe_withReports (x : Strobe) :
    (s.withReports st ps rs ts).strobe x = (s.strobe x).withReports st ps rs ts := by
  cases x
  · show (s.withReports st ps rs ts).slotStep = s.slotStep.withReports st ps rs ts
    cases h : s.armed <;> simp [State.slotStep, State.withReports, State.bufRead, h]
  · rfl

theorem State.strobes_withReports (xs : List Strobe) (s : State) :
    xs.foldl State.strobe (s.withReports st ps rs ts) = (xs.foldl State.strobe s).withReports st ps rs ts := by
  induction xs generalizing s with
  | nil => rfl
  | cons x xs ih => rw [List.foldl_cons, s.strobe_withReports st ps rs ts x, ih, List.foldl_cons]

theorem State.nextGap_withReports :
    (s.withReports st ps rs ts).nextGap = s.nextGap.withReports st ps rs ts := by
  unfold State.nextGap
  show (match s.between with | [] => _ | g :: gs => _) = _
  cases s.between with
  | nil => rfl
  | cons g gs => exact State.strobes_withReports st ps rs ts g { s with between := gs }

theorem State.applyBits_withReports (c : Channel) (w : Pattern) (js : List Slot) (s : State) :
    js.foldl (State.applyBit c w) (s.withReports st ps rs ts) =
      (js.foldl (State.applyBit c w) s).withReports st ps rs ts := by
  induction js generalizing s with
  | nil => rfl
  | cons j js ih =>
    have h : State.applyBit c w (s.withReports st ps rs ts) j =
        (State.applyBit c w s j).withReports st ps rs ts := by
      unfold State.applyBit
      rw [s.nextGap_withReports st ps rs ts]
      rfl
    rw [List.foldl_cons, h, ih, List.foldl_cons]

theorem State.applyWith_withReports (atomic : Bool) (c : Channel) (v : Level) :
    (s.withReports st ps rs ts).applyWith atomic c v = (s.applyWith atomic c v).withReports st ps rs ts := by
  have hb : (s.withReports st ps rs ts).applyBitwise c v = (s.applyBitwise c v).withReports st ps rs ts := by
    unfold State.applyBitwise
    rw [State.applyBits_withReports, State.nextGap_withReports]
    rfl
  unfold State.applyWith
  show (match s.between with | [] => _ | _ :: _ => _) = _
  cases s.between with
  | nil => rfl
  | cons g gs =>
    cases atomic
    · exact hb
    · rfl

/-- A status or a note added beside a column write changes nothing about it. -/
theorem State.becomesByApply_withReports {s t : State} {c : Channel} {d : Diode} {v : Level}
    (h : s.becomesByApply t c d v) :
    (s.withReports st ps rs ts).becomesByApply (t.withReports st ps rs ts) c d v := by
  refine ⟨fun e => ?_, fun n => ?_⟩
  · rw [h.1 e]; rfl
  · rw [h.2 n]
    exact (State.applyWith_withReports { s with diodes := s.diodes.set c.val d } st ps rs ts _ c v).symm

end

theorem State.apply_diodes (c : Channel) (v : Level) :
    (s.apply c v).diodes = s.diodes.set c.val { s.diode c with cur := v } := s.applyWith_diodes _ c v

theorem State.apply_masks (c : Channel) (v : Level) :
    (s.apply c v).masks = writeColumn s.masks c (lookup v) := s.applyWith_masks _ c v

theorem State.apply_frame (c : Channel) (v : Level) : s.sameButColumnWrite (s.apply c v) :=
  s.applyWith_frame _ c v

theorem State.diode_apply (c c' : Channel) (v : Level) :
    (s.apply c v).diode c' = if c' = c then { s.diode c with cur := v } else s.diode c' := by
  have h := s.diode_setCur c c' v
  simpa only [State.diode, s.apply_diodes c v, State.setCur_diodes] using h

theorem State.bufRead_apply (c : Channel) (v : Level) (j : Slot) :
    (s.apply c v).bufRead j = writeMaskBit (s.bufRead j) c ((lookup v).getLsbD j.val) := by
  simp only [State.bufRead, s.apply_masks c v, writeColumn_getElem]

theorem State.columnShows_apply (c : Channel) (v : Level) : (s.apply c v).columnShows c (lookup v) := by
  intro j
  rw [State.bufRead_apply, writeMaskBit_getLsbD, if_pos rfl]

theorem State.otherColumnsKept_apply (c : Channel) (v : Level) : s.otherColumnsKept (s.apply c v) c := by
  intro c' h j
  rw [State.bufRead_apply, writeMaskBit_getLsbD, if_neg h]

theorem State.sameButColumnWrite_refl : s.sameButColumnWrite s := ⟨rfl, fun _ => rfl⟩

theorem State.sameButColumnWrite.between_nil {s t : State} (h : s.sameButColumnWrite t)
    (hb : s.between = []) : t.between = [] := by
  have := h.2 hb
  unfold State.sameButEngine at this
  rw [this]; exact hb

theorem State.sameButColumnWrite_trans {s t u : State} (h : s.sameButColumnWrite t)
    (k : t.sameButColumnWrite u) : s.sameButColumnWrite u := by
  refine ⟨?_, fun hb => ?_⟩
  · rw [k.1, h.1]
  · have h2 := h.2 hb
    have k2 := k.2 (h.between_nil hb)
    unfold State.sameButEngine at *
    rw [k2, h2]

theorem State.sameButColumnWrite_setDiode (c : Channel) (d : Diode) :
    s.sameButColumnWrite (s.setDiode c d) := ⟨rfl, fun _ => rfl⟩

/-- Apply if changed: skipped where the level already stands (R80, R84). -/
theorem State.applyIfChanged_cases (c : Channel) (v : Level) :
    (v = (s.diode c).cur ∧ s.applyIfChanged c v = s) ∨
    (v ≠ (s.diode c).cur ∧ s.applyIfChanged c v = s.apply c v) := by
  unfold State.applyIfChanged
  split
  · exact .inl ⟨‹_›, rfl⟩
  · exact .inr ⟨‹_›, rfl⟩

theorem State.diode_applyIfChanged (c c' : Channel) (v : Level) :
    (s.applyIfChanged c v).diode c' = if c' = c then { s.diode c with cur := v } else s.diode c' := by
  obtain ⟨hv, h⟩ | ⟨_, h⟩ := s.applyIfChanged_cases c v
  · rw [h]
    split
    · subst_vars; rfl
    · rfl
  · rw [h]; exact s.diode_apply c c' v

theorem State.applyIfChanged_frame (c : Channel) (v : Level) :
    s.sameButColumnWrite (s.applyIfChanged c v) := by
  obtain ⟨_, h⟩ | ⟨_, h⟩ := s.applyIfChanged_cases c v <;> rw [h]
  · exact s.sameButColumnWrite_refl
  · exact s.apply_frame c v

theorem State.otherColumnsKept_applyIfChanged (c : Channel) (v : Level) :
    s.otherColumnsKept (s.applyIfChanged c v) c := by
  obtain ⟨_, h⟩ | ⟨_, h⟩ := s.applyIfChanged_cases c v <;> rw [h]
  · exact fun _ _ _ => rfl
  · exact s.otherColumnsKept_apply c v

/-- A column that showed the committed level shows the new one (R19). -/
theorem State.columnShows_applyIfChanged (c : Channel) (v : Level)
    (hc : s.columnShows c (lookup (s.diode c).cur)) :
    (s.applyIfChanged c v).columnShows c (lookup v) := by
  obtain ⟨hv, h⟩ | ⟨_, h⟩ := s.applyIfChanged_cases c v <;> rw [h]
  · rw [hv]; exact hc
  · exact s.columnShows_apply c v

/-! ### The checks of a command (R83, R167) -/

theorem channelOf_eq_some {index : Byte} {c : Channel} :
    channelOf index = some c ↔ index.toNat = c.val := by
  unfold channelOf
  split
  · simp [Fin.ext_iff]
  · simp only [reduceCtorEq, false_iff]
    have := c.isLt
    omega

theorem channelOf_eq_none {index : Byte} : channelOf index = none ↔ 24 ≤ index.toNat := by
  unfold channelOf
  split <;> simp <;> omega

@[simp] theorem channelOf_ofNat (c : Channel) : channelOf (BitVec.ofNat 8 c.val) = some c := by
  rw [channelOf_eq_some]
  have := c.isLt
  simp
  omega

/-- The three outcomes of the checks, in their order: not initialised, a bad index, a channel. -/
theorem State.checkChannel_cases (k : Command) (index : Byte) :
    (s.inited = false ∧ s.checkChannel k index = .error (.notInitialised k)) ∨
    (s.inited = true ∧ 24 ≤ index.toNat ∧ s.checkChannel k index = .error (.badIndex k index)) ∨
    (s.inited = true ∧ ∃ c : Channel, index.toNat = c.val ∧ s.checkChannel k index = .ok c) := by
  unfold State.checkChannel
  cases hi : s.inited
  · exact .inl ⟨rfl, rfl⟩
  · cases hc : channelOf index with
    | none => exact .inr (.inl ⟨rfl, channelOf_eq_none.mp hc, rfl⟩)
    | some c => exact .inr (.inr ⟨rfl, c, channelOf_eq_some.mp hc, rfl⟩)

theorem State.checkChannel_of_channel {s : State} {index : Byte} {c : Channel} (k : Command)
    (hi : s.inited = true) (hc : index.toNat = c.val) : s.checkChannel k index = .ok c := by
  simp [State.checkChannel, hi, channelOf_eq_some.mpr hc]

/-! ### SET and FADE after their checks -/

theorem State.diode_setLevel (c c' : Channel) (level : Int) :
    (s.setLevel c level).diode c' =
      if c' = c then { s.diode c with cur := clampLevel level, tick := (s.diode c).dur }
      else s.diode c' := by
  simp only [State.setLevel, State.diode_applyIfChanged, State.diode_setTick]
  by_cases h : c' = c <;> simp [h]

theorem State.setLevel_frame (c : Channel) (level : Int) : s.sameButColumnWrite (s.setLevel c level) :=
  State.sameButColumnWrite_trans (s.sameButColumnWrite_setDiode c _) (State.applyIfChanged_frame _ c _)

theorem State.otherColumnsKept_setLevel (c : Channel) (level : Int) :
    s.otherColumnsKept (s.setLevel c level) c := fun c' h j => by
  rw [State.setLevel, State.otherColumnsKept_applyIfChanged _ c _ c' h j, State.bufRead_setTick]

theorem State.columnShows_setLevel (c : Channel) (level : Int)
    (hc : s.columnShows c (lookup (s.diode c).cur)) :
    (s.setLevel c level).columnShows c (lookup (clampLevel level)) := by
  apply State.columnShows_applyIfChanged
  intro j
  rw [State.bufRead_setTick, hc j, State.diode_setTick, if_pos rfl]

/-- SET after its checks: the fade cancelled, and the level applied if it differs, and nothing else (R84). -/
theorem State.setLevel_becomes (c : Channel) (level : Int) :
    s.becomesByApply (s.setLevel c level) c { s.diode c with tick := (s.diode c).dur } (clampLevel level) := by
  have hd : ((s.setTick c (s.diode c).dur).diode c).cur = (s.diode c).cur := by
    rw [State.diode_setTick, if_pos rfl]
  obtain ⟨hv, e⟩ | ⟨hv, e⟩ := (s.setTick c (s.diode c).dur).applyIfChanged_cases c (clampLevel level) <;>
    rw [hd] at hv
  · exact ⟨fun _ => e, fun n => absurd hv n⟩
  · exact ⟨fun n => absurd n hv, fun _ => e⟩

theorem State.diode_startFade (c c' : Channel) (t : Level) (d : BitVec 32) :
    (s.startFade c t d).diode c' =
      if c' = c then
        { cur := if d = 0#32 then t else (s.diode c).cur
          src := (s.diode c).cur, tgt := t, dur := d, tick := 0#32 }
      else s.diode c' := by
  unfold State.startFade
  by_cases hd : d = 0#32
  · simp only [hd, if_true, State.diode_applyIfChanged, State.diode_setDiode]
    by_cases h : c' = c <;> simp [h]
  · simp only [hd, if_false, State.diode_setDiode]

theorem State.startFade_frame (c : Channel) (t : Level) (d : BitVec 32) :
    s.sameButColumnWrite (s.startFade c t d) := by
  unfold State.startFade
  by_cases hd : d = 0#32
  · simp only [hd, if_true]
    exact State.sameButColumnWrite_trans (s.sameButColumnWrite_setDiode c _) (State.applyIfChanged_frame _ c _)
  · simp only [hd, if_false]
    exact s.sameButColumnWrite_setDiode c _

/-! ### One lane of TICK -/

theorem State.tickLane_cases (c : Channel) :
    ((s.diode c).idle = true ∧ s.tickLane c = s) ∨
    ((s.diode c).idle = false ∧
      s.tickLane c =
        (s.applyIfChanged c (s.diode c).rampLevel).setTick c ((s.diode c).tick + 1#32)) := by
  unfold State.tickLane
  cases h : (s.diode c).idle
  · exact .inr ⟨rfl, rfl⟩
  · exact .inl ⟨rfl, rfl⟩

/-- What one TICK makes of a diode record (R100). -/
def Diode.ticked (d : Diode) : Diode :=
  if d.idle then d else { d with cur := d.rampLevel, tick := d.tick + 1#32 }

theorem State.diode_tickLane (c c' : Channel) :
    (s.tickLane c).diode c' = if c' = c then (s.diode c).ticked else s.diode c' := by
  obtain ⟨hi, h⟩ | ⟨hi, h⟩ := s.tickLane_cases c
  · rw [h]
    split
    · subst_vars; simp [Diode.ticked, hi]
    · rfl
  · rw [h, State.diode_setTick, State.diode_applyIfChanged, State.diode_applyIfChanged]
    by_cases hc : c' = c <;> simp [hc, Diode.ticked, hi]

theorem State.tickLane_frame (c : Channel) : s.sameButColumnWrite (s.tickLane c) := by
  obtain ⟨_, h⟩ | ⟨_, h⟩ := s.tickLane_cases c <;> rw [h]
  · exact s.sameButColumnWrite_refl
  · exact State.sameButColumnWrite_trans (s.applyIfChanged_frame c _)
      (State.sameButColumnWrite_setDiode _ c _)

theorem State.otherColumnsKept_tickLane (c : Channel) : s.otherColumnsKept (s.tickLane c) c := by
  obtain ⟨_, h⟩ | ⟨_, h⟩ := s.tickLane_cases c <;> rw [h]
  · exact fun _ _ _ => rfl
  · exact fun c' hc j => s.otherColumnsKept_applyIfChanged c _ c' hc j

end Sys2Proof.Machine
end

