-- ==== Sys2Proof/Laws/Commands.lean ====
section
/-! SUPPORT. What the operations above the single lane and the single check can do: SET and FADE with their checks, the
whole TICK, a velocity packet's channel, the animator's operations, and the choice of the next agent. -/

namespace Sys2Proof.Machine

variable (s : State)

/-! ### Clamp and durations -/

/-- `clamp(x, 0, 63)` as a number (R8, R87). -/
theorem clampLevel_toNat (x : Int) : ((clampLevel x).toNat : Int) = max 0 (min x 63) := by
  unfold clampLevel
  split
  · simp; omega
  · split
    · simp; omega
    · simp [BitVec.toNat_ofInt]; omega

theorem Config.minDuration_le_maxDuration : Config.minDuration ≤ Config.maxDuration := by
  have h : (0 : Rat) ≤ ((Config.durationSpanParts.1 : Nat) : Rat) /
      ((Config.durationSpanParts.2 + 1 : Nat) : Rat) := by positivity
  unfold Config.maxDuration
  linarith

/-- The three outcomes of the duration clamp (R141). -/
theorem clampDuration_cases (x : Rat) :
    (x < Config.minDuration ∧ clampDuration x = Config.minDuration) ∨
    (Config.maxDuration < x ∧ clampDuration x = Config.maxDuration) ∨
    (Config.minDuration ≤ x ∧ x ≤ Config.maxDuration ∧ clampDuration x = x) := by
  unfold clampDuration
  split
  · exact .inl ⟨‹_›, rfl⟩
  · split
    · exact .inr (.inl ⟨‹_›, rfl⟩)
    · exact .inr (.inr ⟨not_lt.mp ‹_›, not_lt.mp ‹_›, rfl⟩)

/-! ### Concluding a command -/

@[simp] theorem State.conclude_ok (k : Command) (t : State) : s.conclude k (.ok t) = t.succeed k := rfl
@[simp] theorem State.conclude_error (k : Command) (e : LogEntry) :
    s.conclude k (.error e) = s.raise k e := rfl

/-- A status appended before or after the engine's writes: the same state but for those writes. -/
theorem State.sameButColumnWrite_succeed {s t : State} (k : Command) (h : s.sameButColumnWrite t) :
    (s.succeed k).sameButColumnWrite (t.succeed k) := by
  refine ⟨?_, fun hb => ?_⟩
  · conv_lhs => rw [h.1]
    rfl
  · have h₂ := h.2 hb
    unfold State.sameButEngine at *
    conv_lhs => rw [h₂]
    rfl

/-! ### SET and FADE with their checks -/

/-- SET's outcome: a failure of the checks, or the level set on the channel (R83, R84). -/
theorem State.setChecked_cases (k : Command) (index : Byte) (level : Int) :
    (∃ e, s.checkChannel k index = .error e ∧ s.setChecked k index level = .error e) ∨
    (∃ c, s.checkChannel k index = .ok c ∧ s.setChecked k index level = .ok (s.setLevel c level)) := by
  unfold State.setChecked
  cases h : s.checkChannel k index with
  | error e => exact .inl ⟨e, rfl, rfl⟩
  | ok c => exact .inr ⟨c, rfl, rfl⟩

/-- FADE's outcome: a failure of the checks, or the fade started on the channel (R83, R85). -/
theorem State.fadeChecked_cases (hz : Nat) (index : Byte) (level : LevelOperand) (ms : BitVec 16) :
    (∃ e, s.checkChannel .fade index = .error e ∧ State.fadeChecked hz s index level ms = .error e) ∨
    (∃ c, s.checkChannel .fade index = .ok c ∧
      State.fadeChecked hz s index level ms =
        .ok (s.startFade c (clampLevel (signedLevel level)) (fadeTicks hz ms))) := by
  unfold State.fadeChecked
  cases h : s.checkChannel .fade index with
  | error e => exact .inl ⟨e, rfl, rfl⟩
  | ok c => exact .inr ⟨c, rfl, rfl⟩

/-- GET's outcome: a failure of the checks, or the committed level (R82). -/
theorem State.getChecked_cases (k : Command) (index : Byte) :
    (∃ e, s.checkChannel k index = .error e ∧ s.getChecked k index = .error e) ∨
    (∃ c, s.checkChannel k index = .ok c ∧ s.getChecked k index = .ok (s.diode c).cur) := by
  unfold State.getChecked
  cases h : s.checkChannel k index with
  | error e => exact .inl ⟨e, rfl, rfl⟩
  | ok c => exact .inr ⟨c, rfl, rfl⟩

theorem State.columnKept_applyIfChanged_of_eq (c : Channel) (v : Level) (h : v = (s.diode c).cur) :
    s.columnKept (s.applyIfChanged c v) c := by
  obtain ⟨_, e⟩ | ⟨n, _⟩ := s.applyIfChanged_cases c v
  · rw [e]; exact fun _ => rfl
  · exact absurd h n

theorem State.columnShows_applyIfChanged_of_ne (c : Channel) (v : Level) (h : v ≠ (s.diode c).cur) :
    (s.applyIfChanged c v).columnShows c (lookup v) := by
  obtain ⟨e, _⟩ | ⟨_, e⟩ := s.applyIfChanged_cases c v
  · exact absurd e h
  · rw [e]; exact s.columnShows_apply c v

theorem State.columnKept_setLevel (c : Channel) (level : Int)
    (h : clampLevel level = (s.diode c).cur) : s.columnKept (s.setLevel c level) c :=
  State.columnKept_applyIfChanged_of_eq _ c _ (by rw [h, State.diode_setTick, if_pos rfl])

theorem State.columnShows_setLevel_of_ne (c : Channel) (level : Int)
    (h : clampLevel level ≠ (s.diode c).cur) :
    (s.setLevel c level).columnShows c (lookup (clampLevel level)) :=
  State.columnShows_applyIfChanged_of_ne _ c _ (by rwa [State.diode_setTick, if_pos rfl])

/-! ### TICK as a whole -/

theorem State.tickLanes_frame (cs : List Channel) (s : State) :
    s.sameButColumnWrite (cs.foldl State.tickLane s) := by
  induction cs generalizing s with
  | nil => exact s.sameButColumnWrite_refl
  | cons c cs ih => exact State.sameButColumnWrite_trans (s.tickLane_frame c) (ih _)

theorem State.tickAll_frame : s.sameButColumnWrite s.tickAll := State.tickLanes_frame _ s

theorem State.diode_tickLanes (cs : List Channel) (hcs : cs.Nodup) (s : State) (c : Channel) :
    (cs.foldl State.tickLane s).diode c = if c ∈ cs then (s.diode c).ticked else s.diode c := by
  induction cs generalizing s with
  | nil => simp
  | cons a cs ih =>
    obtain ⟨ha, hn⟩ := List.nodup_cons.mp hcs
    rw [List.foldl_cons, ih hn, State.diode_tickLane]
    by_cases h : c = a
    · subst h; simp [ha]
    · simp [h]

/-- One TICK makes of every record what one lane makes of it (R100, R105). -/
theorem State.diode_tickAll (c : Channel) : s.tickAll.diode c = (s.diode c).ticked := by
  rw [State.tickAll, State.diode_tickLanes _ (List.nodup_finRange 24), if_pos (List.mem_finRange c)]

theorem State.tickLane_columnKept (c : Channel) (h : (s.diode c).ticked.cur = (s.diode c).cur) :
    s.columnKept (s.tickLane c) c := by
  obtain ⟨_, e⟩ | ⟨hi, e⟩ := s.tickLane_cases c
  · rw [e]; exact fun _ => rfl
  · rw [e]
    exact s.columnKept_applyIfChanged_of_eq c _ (by simpa [Diode.ticked, hi] using h)

theorem State.tickLane_columnShows (c : Channel) (h : (s.diode c).ticked.cur ≠ (s.diode c).cur) :
    (s.tickLane c).columnShows c (lookup (s.diode c).ticked.cur) := by
  obtain ⟨hi, e⟩ | ⟨hi, e⟩ := s.tickLane_cases c
  · simp [Diode.ticked, hi] at h
  · rw [e]
    have h' : (s.diode c).rampLevel ≠ (s.diode c).cur := by simpa [Diode.ticked, hi] using h
    have hs := s.columnShows_applyIfChanged_of_ne c _ h'
    simpa [Diode.ticked, hi, State.columnShows] using hs

/-- What the lanes of a list make of a column: its own lane decides, the others keep it. -/
theorem State.column_tickLanes (cs : List Channel) (hcs : cs.Nodup) (s : State) (c : Channel) (hc : c ∈ cs) :
    ((s.diode c).ticked.cur = (s.diode c).cur → s.columnKept (cs.foldl State.tickLane s) c) ∧
    ((s.diode c).ticked.cur ≠ (s.diode c).cur →
      (cs.foldl State.tickLane s).columnShows c (lookup (s.diode c).ticked.cur)) := by
  have others : ∀ (cs : List Channel) (s : State), c ∉ cs → s.columnKept (cs.foldl State.tickLane s) c := by
    intro cs
    induction cs with
    | nil => exact fun _ _ _ => rfl
    | cons a cs ih =>
      intro s hn j
      have hne : c ≠ a := fun e => hn (by simp [e])
      rw [List.foldl_cons, ih _ (fun m => hn (by simp [m])) j,
        s.otherColumnsKept_tickLane a c hne j]
  induction cs generalizing s with
  | nil => simp at hc
  | cons a cs ih =>
    obtain ⟨ha, hn⟩ := List.nodup_cons.mp hcs
    rw [List.foldl_cons]
    by_cases h : c = a
    · subst h
      have hk := others cs (s.tickLane c) ha
      exact ⟨fun e j => by rw [hk j, s.tickLane_columnKept c e j],
        fun e j => by rw [hk j, s.tickLane_columnShows c e j]⟩
    · have hd : (s.tickLane a).diode c = s.diode c := by rw [State.diode_tickLane, if_neg h]
      have hk := s.otherColumnsKept_tickLane a c h
      have := ih hn (s.tickLane a) (by simpa [h] using hc)
      rw [hd] at this
      exact ⟨fun e j => by rw [this.1 e j, hk j], this.2⟩

/-- One TICK leaves a column alone where the level stays, and shows the new level where it changes (R100). -/
theorem State.column_tickAll (c : Channel) :
    ((s.diode c).ticked.cur = (s.diode c).cur → s.columnKept s.tickAll c) ∧
    ((s.diode c).ticked.cur ≠ (s.diode c).cur →
      s.tickAll.columnShows c (lookup (s.diode c).ticked.cur)) :=
  State.column_tickLanes _ (List.nodup_finRange 24) s c (List.mem_finRange c)

/-! ### The ramp -/

/-- The offset of a ramp from its source, as a fraction of the whole way, lies between nothing and all of it. -/
theorem tdiv_mul_between (x : Int) (n d : Nat) (hd : 1 ≤ d) (hn : n ≤ d) :
    min 0 x ≤ Int.tdiv (x * n) d ∧ Int.tdiv (x * n) d ≤ max 0 x := by
  have key : ∀ y : Int, 0 ≤ y → 0 ≤ Int.tdiv (y * n) d ∧ Int.tdiv (y * n) d ≤ y := by
    intro y hy
    have hyn : 0 ≤ y * (n : Int) := mul_nonneg hy (by positivity)
    rw [Int.tdiv_eq_ediv_of_nonneg hyn]
    refine ⟨Int.ediv_nonneg hyn (by positivity), ?_⟩
    apply Int.ediv_le_of_le_mul (by omega)
    exact mul_le_mul_of_nonneg_left (by exact_mod_cast hn) hy
  by_cases h : 0 ≤ x
  · have := key x h
    omega
  · have := key (-x) (by omega)
    rw [neg_mul, Int.neg_tdiv] at this
    omega

/-- A ramp stays between its endpoints (R101 (b)). -/
theorem rampAt_between (src tgt : Level) (d n : Nat) (hd : 1 ≤ d) (hn : n ≤ d) :
    min (src.toNat : Int) tgt.toNat ≤ rampAt src tgt d n ∧
    rampAt src tgt d n ≤ max (src.toNat : Int) tgt.toNat := by
  have := tdiv_mul_between ((tgt.toNat : Int) - src.toNat) n d hd hn
  unfold rampAt
  omega

theorem rampAt_range (src tgt : Level) (d n : Nat) (hd : 1 ≤ d) (hn : n ≤ d) :
    0 ≤ rampAt src tgt d n ∧ rampAt src tgt d n ≤ 63 := by
  have := rampAt_between src tgt d n hd hn
  have h₁ := src.isLt
  have h₂ := tgt.isLt
  omega

/-- Within its fade, the level of a diode's next tick is the ramp's value exactly: nothing is cut off (R101 (b)). -/
theorem Diode.rampLevel_toNat (d : Diode) (h : d.tick.toNat < d.dur.toNat) :
    (d.rampLevel.toNat : Int) = rampAt d.src d.tgt d.dur.toNat (d.tick.toNat + 1) := by
  have := rampAt_range d.src d.tgt d.dur.toNat (d.tick.toNat + 1) (by omega) (by omega)
  rw [Diode.rampLevel, BitVec.toNat_ofInt]
  omega

/-! ### The animator -/

/-- `play`'s outcome: an unknown id, an unknown follow action, or a fresh animation (R141, R164). -/
theorem State.playChecked_cases (id ds fid : Byte) :
    (Config.animationOf id = none ∧ s.playChecked id ds fid = .error (.badAnimation id)) ∨
    (∃ a, Config.animationOf id = some a ∧ Config.followOf fid = none ∧
      s.playChecked id ds fid = .error (.badFollowAction fid)) ∨
    (∃ a f, Config.animationOf id = some a ∧ Config.followOf fid = some f ∧
      s.playChecked id ds fid =
        .ok { s with animator := ⟨a, clampDuration (deciseconds ds), f, 0, true⟩ }) := by
  unfold State.playChecked
  cases ha : Config.animationOf id with
  | none => exact .inl ⟨rfl, rfl⟩
  | some a =>
    cases hf : Config.followOf fid with
    | none => exact .inr (.inl ⟨a, rfl, rfl, rfl⟩)
    | some f => exact .inr (.inr ⟨a, f, rfl, rfl, rfl⟩)

/-- `update`'s outcome: nothing, the frame of the new progress, or the last frame with the follow action to come
(R142). -/
theorem State.updateNow_cases (dt : Rat) :
    (s.animator.playing = false ∧ s.updateNow dt = s) ∨
    (s.animator.playing = true ∧ s.animator.progress + dt / s.animator.duration < 1 ∧
      s.updateNow dt =
        { s with
          animator := { s.animator with progress := s.animator.progress + dt / s.animator.duration } }.queueFrame
          (effectFrame s.animator.current (s.animator.progress + dt / s.animator.duration))) ∨
    (s.animator.playing = true ∧ 1 ≤ s.animator.progress + dt / s.animator.duration ∧
      s.updateNow dt =
        { s with
          animator := { s.animator with progress := 1 }
          animWork := .finish :: s.animWork }.queueFrame (effectFrame s.animator.current 1)) := by
  unfold State.updateNow
  cases hp : s.animator.playing
  · exact .inl ⟨rfl, rfl⟩
  · by_cases h : 1 ≤ s.animator.progress + dt / s.animator.duration
    · exact .inr (.inr ⟨rfl, h, by simp [h]⟩)
    · exact .inr (.inl ⟨rfl, not_le.mp h, by simp [h]⟩)

/-- The end of a finished `update`, by its follow action (R142, R143). -/
theorem State.finishUpdate_cases :
    (s.animator.follow = .loop ∧
      s.finishUpdate = { s with animator := { s.animator with progress := 0 } }) ∨
    (s.animator.follow = .stopLastFrame ∧
      s.finishUpdate = s.stopFields.queueFrame (effectFrame s.animator.current 1)) ∨
    (s.animator.follow = .stopOff ∧
      s.finishUpdate = s.stopFields.issueFrame ((List.finRange 24).map fun i => (i, 0#32))) ∨
    (s.animator.follow = .stopPreviousState ∧ s.finishUpdate = s.stopFields) := by
  unfold State.finishUpdate
  cases s.animator.follow <;> simp [terminalFrame]

/-- What every SET of a frame keeps, the whole frame keeps. -/
theorem State.issueFrame_induction {P : State → Prop} (step : ∀ s x, P s → P (s.setFromFrame x))
    (frame : List (Channel × LevelOperand)) (s : State) (h : P s) : P (s.issueFrame frame) := by
  induction frame generalizing s with
  | nil => exact h
  | cons x xs ih => exact ih _ (step s x h)

theorem channel_ofNat_toNat (c : Channel) : (BitVec.ofNat 8 c.val).toNat = c.val := by
  have := c.isLt
  simp
  omega

/-- A SET of a frame names a channel that exists: it sets the level, or is refused before INIT (R83, R84). -/
theorem State.setFromFrame_cases (x : Channel × LevelOperand) :
    (s.inited = true ∧ s.setFromFrame x = (s.setLevel x.1 x.2.toInt).succeed .set) ∨
    (s.inited = false ∧ s.setFromFrame x = s.raise .set (.notInitialised .set)) := by
  unfold State.setFromFrame State.setCommand
  cases h : s.inited
  · exact .inr ⟨rfl, by simp [State.setChecked, State.checkChannel, h]⟩
  · exact .inl ⟨rfl, by
      simp [State.setChecked, State.checkChannel_of_channel .set h (channel_ofNat_toNat x.1), signedLevel]⟩

/-- The SETs of a frame in one step are the SET commands of a client, one after another (R145). -/
theorem execAll_frame (frame : List (Channel × LevelOperand)) (s : State) :
    execAll (frame.map fun x => Instr.set (BitVec.ofNat 8 x.1.val) x.2) s = .next (s.issueFrame frame) := by
  induction frame generalizing s with
  | nil => rfl
  | cons x xs ih => exact ih (s.setFromFrame x)

/-! ### Who moves next -/

/-- Whoever moves next has something to do, and an arrival that moves does not wait for anything. -/
theorem State.ready_of_nextTurn {s : State} {t : Turn} (h : s.nextTurn = some t) : s.ready t = true := by
  have dflt : s.defaultTurn = some t → s.ready t = true := List.find?_some
  unfold State.nextTurn at h
  split at h
  · exact dflt h
  · split at h
    · rename_i r
      cases h
      exact r
    · exact dflt h

/-- An arrival waits for a packet 0x81 of its client, an `update` in progress, or a held tick, and for nothing else. -/
theorem State.mayTake_of_idle {s : State} (hp : s.pendingTicks = 0) (hj : s.packets = []) (ha : s.animWork = [])
    (x : Input) : s.mayTake x = true := by
  cases x with
  | word client p => cases p <;> simp [State.mayTake, State.clientBusy, hp, hj, ha]
  | rst => rfl
  | armOk _ => rfl
  | update _ => simp [State.mayTake, ha]

/-- Undisturbed and with an arrival waiting, the arrival is next (R41, log entry 8). -/
theorem State.nextTurn_of_undisturbed {s : State} {x : Input} {xs : List Input} (h : s.undisturbed)
    (hi : s.inputs = x :: xs) : s.nextTurn = some .input := by
  obtain ⟨h₁, h₂, h₃, h₄, _⟩ := h
  have hm := State.mayTake_of_idle h₂ h₃ h₄ x
  simp [State.nextTurn, State.defaultTurn, State.ready, h₁, h₂, h₃, h₄, hi, hm]

/-- With nobody to choose and no tick held, a packet in progress is next. -/
theorem State.nextTurn_of_packet {s : State} {j : SetAll} {js : List SetAll} (ht : s.turns = [])
    (hp : s.pendingTicks = 0) (hj : s.packets = j :: js) : s.nextTurn = some (.packet 0) := by
  simp [State.nextTurn, State.defaultTurn, State.ready, ht, hp, hj]

/-- With nobody to choose, no tick held and no packet in progress, the animator's work is next. -/
theorem State.nextTurn_of_animWork {s : State} {a : AnimStep} {as : List AnimStep} (ht : s.turns = [])
    (hp : s.pendingTicks = 0) (hj : s.packets = []) (ha : s.animWork = a :: as) :
    s.nextTurn = some .animator := by
  simp [State.nextTurn, State.defaultTurn, State.ready, ht, hp, hj, ha]

/-! ### The host's word -/

/-- No packet in progress is the fresh client's. -/
theorem State.clientBusy_freshClient : s.clientBusy s.freshClient = false := by
  have key (ps : List SetAll) (n : Nat) :
      n ≤ ps.foldl (fun n job => max n (job.client + 1)) n ∧
      ∀ job ∈ ps, job.client < ps.foldl (fun n job => max n (job.client + 1)) n := by
    induction ps generalizing n with
    | nil => simp
    | cons p ps ih =>
      have h := ih (max n (p.client + 1))
      simp only [List.foldl_cons, List.mem_cons, forall_eq_or_imp]
      exact ⟨by omega, by omega, h.2⟩
  simp only [State.clientBusy, List.any_eq_false, beq_iff_eq]
  intro job hj
  have := (key s.packets 0).2 job hj
  unfold State.freshClient
  omega

/-- The word the host places is taken by the very next step, in every state. -/
theorem State.nextTurn_placeWord (nbits w : Nat) (p : PortWord) (h : tablePortWord nbits w = some p) :
    (s.placeWord nbits w).nextTurn = some .input := by
  have hb := s.clientBusy_freshClient
  have hr : (s.placeWord nbits w).ready .input = true := by
    unfold State.placeWord
    rw [h]
    cases p with
    | native v =>
      by_cases hi : decode (.native v) = .ok .init <;>
        simp_all [State.ready, State.mayTake, State.clientBusy]
    | wire v =>
      by_cases hi : callsAnimator (decode (.wire v)) = true <;>
        simp_all [State.ready, State.mayTake, State.clientBusy]
    | _ => rfl
  have ht : (s.placeWord nbits w).turns = .input :: s.turns := by
    unfold State.placeWord
    rw [h]
  unfold State.nextTurn
  rw [ht]
  simp [hr]

end Sys2Proof.Machine
end

