-- ==== Sys2Proof/Laws/PerInstr.lean ====
section
/-! SUPPORT. The family of lemmas, one per instruction, that the encoder writes only words with an assigned opcode
(30_encoding.md R52, R56). -/

/-- The encoder's word for an instruction is well formed: its opcode is assigned (R52, R56). -/
def Sys2Proof.Laws.EncodesWellFormed.Statement (i : Sys2Proof.Instr) : Prop :=
  (Sys2Proof.encode i).wellFormed = true

namespace Sys2Proof.Laws.EncodesWellFormed

/-- The opcode field of a native word. -/
theorem nativeWord_op (op index : Byte) (level : LevelOperand) (ms : BitVec 16) :
    (nativeWord op index level ms).extractLsb' 56 8 = op := by
  apply BitVec.eq_of_getLsbD_eq
  intro i hi
  simp only [nativeWord, BitVec.getLsbD_extractLsb', BitVec.getLsbD_append, hi, decide_true,
    Bool.true_and]
  rw [if_neg (by omega), if_neg (by omega), if_neg (by omega)]
  congr 1
  omega

/-- The opcode field of a packet. -/
theorem packetOfBytes_opcode (b0 b1 b2 b3 : Byte) :
    (packetOfBytes b0 b1 b2 b3).extractLsb' 24 8 = b0 := by
  apply BitVec.eq_of_getLsbD_eq
  intro i hi
  simp only [packetOfBytes, BitVec.getLsbD_extractLsb', BitVec.getLsbD_append, hi, decide_true,
    Bool.true_and]
  rw [if_neg (by omega), if_neg (by omega), if_neg (by omega)]
  congr 1
  omega

theorem init : Statement .init := by
  simp [Statement, encode, PortWord.wellFormed, nativeWord_op, nativeOpcodeAssigned]

theorem get (index : Byte) : Statement (.get index) := by
  simp [Statement, encode, PortWord.wellFormed, nativeWord_op, nativeOpcodeAssigned]

theorem set (index : Byte) (level : LevelOperand) : Statement (.set index level) := by
  simp [Statement, encode, PortWord.wellFormed, nativeWord_op, nativeOpcodeAssigned]

theorem fade (index : Byte) (level : LevelOperand) (durationMs : BitVec 16) : Statement (.fade index level durationMs) := by
  simp [Statement, encode, PortWord.wellFormed, nativeWord_op, nativeOpcodeAssigned]

theorem wset (channel velocity : Byte) : Statement (.wset channel velocity) := by
  simp [Statement, encode, PortWord.wellFormed, packetOfBytes_opcode, wireOpcodeAssigned]

theorem wsetall (velocity : Byte) : Statement (.wsetall velocity) := by
  simp [Statement, encode, PortWord.wellFormed, packetOfBytes_opcode, wireOpcodeAssigned]

theorem wget (channel : Byte) : Statement (.wget channel) := by
  simp [Statement, encode, PortWord.wellFormed, packetOfBytes_opcode, wireOpcodeAssigned]

theorem wplay (animationId deciseconds followId : Byte) : Statement (.wplay animationId deciseconds followId) := by
  simp [Statement, encode, PortWord.wellFormed, packetOfBytes_opcode, wireOpcodeAssigned]

theorem wstop : Statement .wstop := by
  simp [Statement, encode, PortWord.wellFormed, packetOfBytes_opcode, wireOpcodeAssigned]

theorem wver : Statement .wver := by
  simp [Statement, encode, PortWord.wellFormed, packetOfBytes_opcode, wireOpcodeAssigned]

theorem wboot : Statement .wboot := by
  simp [Statement, encode, PortWord.wellFormed, packetOfBytes_opcode, wireOpcodeAssigned]

theorem tick : Statement .tick :=
  rfl

theorem slot : Statement .slot :=
  rfl

theorem lookup (n : Level) : Statement (.lookup n) :=
  rfl

end Sys2Proof.Laws.EncodesWellFormed
end

