-- ==== Sys2Proof/Tests/Slice0.lean ====
section
/-! SUPPORT. Tests: the well-formedness smoke, every constructor's decoding from a word written out by hand, one-step tests
from 95_test_vectors.md, and for each statement with hypotheses a state and operands that meet them. -/

namespace Sys2Proof.Tests

open Sys2Proof.Machine

/-! ### Well-formedness: the ill-formed terms are refused -/

theorem test_wf_native_opcode_4_refused :
    (PortWord.native 0x0400000000000000#64).wellFormed = false := by decide
theorem test_wf_native_opcode_3_accepted :
    (PortWord.native 0x03FFFFFFFFFFFFFF#64).wellFormed = true := by decide
theorem test_wf_wire_opcode_85_refused : (PortWord.wire 0x85000000#32).wellFormed = false := by decide
theorem test_wf_wire_opcode_84_accepted : (PortWord.wire 0x84FFFFFF#32).wellFormed = true := by decide
theorem test_wf_text_index_256_refused : (TextLine.get 256).wellFormed = false := by decide
theorem test_wf_text_set_index_256_refused : (TextLine.set 256 0).wellFormed = false := by decide
theorem test_wf_text_level_too_high_refused : (TextLine.set 0 2147483648).wellFormed = false := by decide
theorem test_wf_text_level_too_low_refused : (TextLine.set 0 (-2147483649)).wellFormed = false := by decide
theorem test_wf_text_fade_index_refused : (TextLine.fade 256 0 0).wellFormed = false := by decide
theorem test_wf_text_fade_level_refused : (TextLine.fade 0 2147483648 0).wellFormed = false := by decide
theorem test_wf_text_duration_refused : (TextLine.fade 0 0 65536).wellFormed = false := by decide
theorem test_wf_text_in_range_accepted : (TextLine.fade 255 (-2147483648) 65535).wellFormed = true := by decide

/-! ### Decoding, each word written out from R51, R52, R55, R56; the unused bits are set in some -/

theorem test_decode_init : decode (.native 0x00FFFFFFFFFFFFFF#64) = .ok .init := by decide
/-- Program P2: `GET 7`. -/
theorem test_decode_get : decode (.native 0x0107000000000000#64) = .ok (.get 7#8) := by decide
/-- R63: `SET 5, 999`. -/
theorem test_decode_set : decode (.native 0x0205000003E70000#64) = .ok (.set 5#8 999#32) := by decide
/-- Program P2: `FADE 7, 0, 40`. -/
theorem test_decode_fade : decode (.native 0x0307000000000028#64) = .ok (.fade 7#8 0#32 40#16) := by decide
/-- V-WIRE-5: the third argument is ignored. -/
theorem test_decode_wset : decode (.wire 0x80057FAA#32) = .ok (.wset 5#8 0x7F#8) := by decide
theorem test_decode_wsetall : decode (.wire 0x8140FFFF#32) = .ok (.wsetall 0x40#8) := by decide
theorem test_decode_wget : decode (.wire 0x82170000#32) = .ok (.wget 0x17#8) := by decide
/-- V-WIRE-16. -/
theorem test_decode_wplay : decode (.wire 0x83633200#32) = .ok (.wplay 99#8 50#8 0#8) := by decide
theorem test_decode_wstop : decode (.wire 0x84000000#32) = .ok .wstop := by decide
theorem test_decode_wver : decode (.wire 0xF0000000#32) = .ok .wver := by decide
theorem test_decode_wboot : decode (.wire 0xF1000000#32) = .ok .wboot := by decide
theorem test_decode_tick : decode .fadeTick = .ok .tick := rfl
theorem test_decode_slot : decode .slotTick = .ok .slot := rfl
theorem test_decode_lookup : decode (.tableAddress 63#6) = .ok (.lookup 63#6) := rfl
/-- V-CMD-18. -/
theorem test_decode_native_4 :
    decode (.native 0x0400000000000000#64) = .reject (.badNativeOpcode 4#8) := by decide
/-- V-WIRE-13. -/
theorem test_decode_wire_85 : decode (.wire 0x85000000#32) = .reject (.badWireOpcode 0x85#8) := by decide
theorem test_decode_three_bytes : decodeWireBytes [0x80#8, 0#8, 0#8] = .reject (.notFourBytes 3) := by decide

/-- R63: a line of text with its comment. -/
theorem test_text_set_negative :
    assembleLine ['S', 'E', 'T', ' ', '0', ',', ' ', '-', '1', ' ', ';', 'x']
      = some [.native 0x0200FFFFFFFF0000#64] := by decide
/-- R63: `PKT 80 05 7F 00`. -/
theorem test_text_pkt :
    assembleLine ['P', 'K', 'T', ' ', '8', '0', ' ', '0', '5', ' ', '7', 'F', ' ', '0', '0']
      = some [.wire 0x80057F00#32] := by decide
theorem test_text_unknown_word : assembleLine ['N', 'O', 'P'] = none := by decide

/-! ### The host's interface -/

theorem test_table_word_tick : decodeTableWord 8 1 = some .tick := rfl
theorem test_fetch_word_runs_next :
    step (State.reset.withFetchWord 64 0) = exec .init State.reset := rfl

/-! ### One step of each instruction -/

/-- An initialised block, everything zero and armed (R81). -/
def booted : State := { State.reset with inited := true, armed := true, tickArmed := true }

/-- A booted block whose channel `c` has this record; its column is not filled in. -/
def withDiode (c : Channel) (d : Diode) : State := booted.setDiode c d

/-- A booted block whose animator plays. -/
def playingState (f : FollowAction) : State :=
  { booted with animator := { current := .flip, duration := 5, follow := f, progress := 0, playing := true } }

/-- What `f` reads in the state an instruction leads to. -/
def result (i : Instr) (s : State) (f : State → α) : Option α :=
  match exec i s with
  | .next t => some (f t)
  | .fault _ => none
  | .refused _ => none

/-- V-CMD-20. -/
theorem test_init_zeroes :
    result .init (withDiode 5 ⟨63#6, 1#6, 2#6, 9#32, 3#32⟩)
      (fun t => (t.diode 5, t.inited, t.armed, t.tickArmed)) = some (Diode.zero, true, true, true) := by
  decide +kernel
/-- V-CMD-17. -/
theorem test_init_arm_fail :
    result .init { State.reset with armOk := false }
      (fun t => (t.inited, t.tickArmed, t.armed, t.returns, t.errorLog))
      = some (true, true, false, [.status .init .armFail], [.armFail]) := by decide +kernel
/-- V-CMD-8. -/
theorem test_get_bad_index : result (.get 24#8) booted State.returns = some [.level .badIndex 0#6] := by
  decide +kernel
/-- V-CMD-16. -/
theorem test_get_before_init : result (.get 0#8) State.reset State.returns = some [.level .notInitialised 0#6] := by
  decide +kernel
/-- V-CMD-2: level 6 lights slots 0 and 32. -/
theorem test_set_column :
    result (.set 0#8 6#32) booted (fun t => (t.diode 0, t.bufRead 0, t.bufRead 31, t.bufRead 32, t.returns))
      = some (⟨6#6, 0#6, 0#6, 0#32, 0#32⟩, 1#24, 0#24, 1#24, [.status .set .ok]) := by decide +kernel
/-- V-CMD-4: -1 clamps to 0; R84: the fade is cancelled. -/
theorem test_set_clamps_and_cancels :
    result (.set 5#8 0xFFFFFFFF#32) (withDiode 5 ⟨63#6, 63#6, 10#6, 9#32, 3#32⟩) (fun t => t.diode 5)
      = some ⟨0#6, 63#6, 10#6, 9#32, 9#32⟩ := by decide +kernel
/-- V-CMD-11, at 100 Hz: one tick long. -/
theorem test_fade_one_tick :
    (State.fadeChecked 100 (withDiode 3 ⟨20#6, 0#6, 0#6, 0#32, 0#32⟩) 3#8 40#32 10#16).toOption.map
      (fun t => t.diode 3) = some ⟨20#6, 20#6, 40#6, 1#32, 0#32⟩ := by decide +kernel
/-- V-CMD-12, at 100 Hz: too short for a tick. -/
theorem test_fade_at_once :
    (State.fadeChecked 100 (withDiode 2 ⟨63#6, 0#6, 0#6, 0#32, 0#32⟩) 2#8 0xFFFFFFFB#32 5#16).toOption.map
      (fun t => t.diode 2) = some ⟨0#6, 63#6, 0#6, 0#32, 0#32⟩ := by decide +kernel
/-- V-WIRE-4. -/
theorem test_wset_sets :
    result (.wset 5#8 0x7F#8) booted (fun t => ((t.diode 5).cur, t.stored[5], t.bufRead 62, t.returns))
      = some (63#6, 63#6, 0x000020#24, [.status .wset .ok]) := by decide +kernel
/-- V-WIRE-11: while an animation plays only `stored` is written. -/
theorem test_wset_suppressed :
    result (.wset 5#8 0xFF#8) (playingState .loop) (fun t => ((t.diode 5).cur, t.stored[5], t.returns))
      = some (0#6, 63#6, [.status .wset .ok]) := by decide +kernel
/-- V-WIRE-7, its first step. -/
theorem test_wsetall_first_step :
    result (.wsetall 0x40#8) booted (fun t => ((t.diode 0).cur, (t.diode 1).cur, t.stored[0], t.returns))
      = some (31#6, 0#6, 31#6, []) := by decide +kernel
/-- R128: before INIT. -/
theorem test_wsetall_before_init :
    result (.wsetall 0x40#8) State.reset (fun t => (t.packets, t.returns))
      = some ([], [.status .wsetall .notInitialised]) := by decide +kernel
/-- V-WIRE-8. -/
theorem test_wget_answers :
    result (.wget 0x17#8) (withDiode 23 ⟨31#6, 0#6, 0#6, 0#32, 0#32⟩) State.responses
      = some [0x82173E00#32] := by decide +kernel
/-- V-WIRE-10. -/
theorem test_wget_bad_channel :
    result (.wget 0x18#8) booted (fun t => (t.responses, t.returns))
      = some ([0x82180000#32], [.status .wget .badIndex]) := by decide +kernel
/-- V-WIRE-16. -/
theorem test_wplay_unknown_id :
    result (.wplay 99#8 50#8 0#8) (playingState .loop) (fun t => (t.animator, t.returns))
      = some ((playingState .loop).animator, [.status .wplay .badAnimation]) := by decide +kernel
/-- R143, StopOff, one step (R40): the level of a channel that was lit, and 24 SETs and then WSTOP return OK. -/
theorem test_wstop_off :
    result .wstop ((playingState .stopOff).setLevel 23 63)
        (fun t => (t.animator.playing, t.animator.progress, (t.diode 23).cur, t.bufRead 62, t.returns))
      = some (false, 1, 0#6, 0#24, List.replicate 24 (.status .set .ok) ++ [.status .wstop .ok]) := by
  decide +kernel
/-- 91 N30, the model's choice (log entry 26): WSTOP before INIT answers OK, its SETs refused and logged. -/
theorem test_wstop_before_init :
    result .wstop { State.reset with animator := (playingState .stopOff).animator }
        (fun t => (t.animator.playing, t.errorLog, t.returns.length, t.returns.getLast?))
      = some (false, List.replicate 24 (.notInitialised .set), 25, some (.status .wstop .ok)) := by
  decide +kernel
/-- V-WIRE-14. -/
theorem test_wver_answers :
    result .wver State.reset State.responses
      = some [packetOfBytes 0xF0#8 Config.versionMajor Config.versionMinor Config.versionPatch] := rfl
/-- V-WIRE-15. -/
theorem test_wboot_resets :
    result .wboot booted (fun t => (t.inited, t.armed, t.tickArmed, t.responses))
      = some (false, false, false, []) := rfl
/-- V-TICK-14, V-TICK-2, third row: 63 to 0 in 5 ticks, truncated toward zero. -/
theorem test_tick_truncates :
    result .tick (withDiode 7 ⟨38#6, 63#6, 0#6, 5#32, 2#32⟩) (fun t => (t.diode 7, t.bufRead 0))
      = some (⟨26#6, 63#6, 0#6, 5#32, 3#32⟩, 0x000080#24) := by decide +kernel
/-- V-TICK-17: an idle diode is skipped. -/
theorem test_tick_skips_idle :
    result .tick (withDiode 3 ⟨63#6, 0#6, 63#6, 5#32, 5#32⟩) (fun t => t.diode 3)
      = some ⟨63#6, 0#6, 63#6, 5#32, 5#32⟩ := by decide +kernel
/-- V-SLOT-3: the serial order of mask `0x800005`. -/
theorem test_slot_serial :
    result .slot (booted.bufWriteBit 0 23 true |>.bufWriteBit 0 2 true |>.bufWriteBit 0 0 true)
      (fun t => (t.q, t.frames, t.line))
      = some (0x800005#24, [⟨0, 0x800005#24⟩],
          .bit true :: List.replicate 20 (.bit false) ++ [.bit true, .bit false, .bit true, .latch]) := by
  decide +kernel
/-- V-SLOT-2: slot 62 wraps to 0. -/
theorem test_slot_wraps : result .slot { booted with slot := 62 } State.slot = some 0 := by decide +kernel
/-- V-LUT-2. -/
theorem test_lookup_words :
    result (.lookup 8#6) State.reset State.returns = some [.pattern 0x0000040000200001#64] ∧
    result (.lookup 63#6) State.reset State.returns = some [.pattern 0x7FFFFFFFFFFFFFFF#64] := by decide +kernel
/-- V-CMD-18. -/
theorem test_reserved_word_goes_on :
    step (booted.withFetchWord 64 0x0400000000000000)
      = .next (booted.raise .reserved (.badOpcode 4#8)) := rfl
/-- R39: a held tick goes before the next arrival. -/
theorem test_held_tick_moves_first :
    State.nextTurn { booted with pendingTicks := 1, inputs := [.rst] } = some .heldTick := by decide +kernel

/-- R27, R39: INIT is not taken while a tick is held, so that it leaves none pending. -/
theorem test_init_waits_for_held_tick :
    State.nextTurn { booted with
      pendingTicks := 1, turns := [.input], inputs := [.word 0 (.native 0#64)] } = some .heldTick := by
  decide +kernel
/-- R41 (2): client 7 waits for its own packet 0x81, client 8 does not. -/
theorem test_client_waits_for_its_packet :
    State.nextTurn { booted with
      packets := [⟨5, 63, false, 7⟩], turns := [.input], inputs := [.word 7 (.wire 0x82000000#32)] } = some (.packet 0) ∧
    State.nextTurn { booted with
      packets := [⟨5, 63, false, 7⟩], turns := [.input], inputs := [.word 8 (.wire 0x82000000#32)] } = some .input := by
  decide +kernel
/-- R38: a SLOT inside the bitwise write of level 63 over an all-dark column, after the bits of slots 0 and 1. The frame is
of slot 1, whose bit is already written; a SLOT before the first bit shows slot 0 dark. -/
theorem test_slot_inside_column_write :
    (State.applyWith false { booted with between := [[.slot], [], [.slot]] } 5 63#6).frames
      = [⟨0, 0#24⟩, ⟨1, 0x000020#24⟩] := by decide +kernel
/-- R39: a fade tick inside a bitwise write is held; the write takes the gaps it passes. -/
theorem test_tick_inside_column_write :
    (fun t => (t.pendingTicks, t.between, (t.diode 5).cur))
        (State.applyWith false { booted with between := [[.fadeTick], [.slot, .fadeTick]] } 5 63#6)
      = (2, [], 63#6) := by decide +kernel

/-! ### Witnesses: the hypotheses of the statements can be met -/

/-- A booted block with one arrival. -/
def oneInput (x : Input) : State := { booted with inputs := [x] }

/-- A booted block in which channel 7 fades from 63 to 0 in 4 ticks (program P2). -/
def fading : State := (booted.setLevel 7 63).startFade 7 0#6 4#32

theorem booted_inv : booted.Inv := by
  unfold State.Inv State.lifecycleOk State.countersOk State.bufferOk State.rampsOk State.columnShows
  decide +kernel

theorem fading_inv : fading.Inv := by
  unfold State.Inv State.lifecycleOk State.countersOk State.bufferOk State.rampsOk State.columnShows
  decide +kernel

theorem oneInput_inv (x : Input) : (oneInput x).Inv := booted_inv

theorem booted_undisturbed : booted.undisturbed := ⟨rfl, rfl, rfl, rfl, rfl⟩

theorem witness_EncodeOfDecodedKeepsUsedBits :
    decode (.native 0x0107000000000001#64) = .ok (.get 7#8) ∧
    decode (.wire 0x84000001#32) = .ok .wstop := by decide

theorem witness_ReservedOpcodesAreRejected :
    4 ≤ (BitVec.extractLsb' 56 8 0x0400000000000000#64).toNat ∧
    (BitVec.extractLsb' 56 8 0x0300000000000000#64).toNat < 4 ∧
    BitVec.extractLsb' 24 8 0x85000000#32 ∉ [0x80#8, 0x81#8, 0x82#8, 0x83#8, 0x84#8, 0xF0#8, 0xF1#8] ∧
    BitVec.extractLsb' 24 8 0x84000000#32 ∈ [0x80#8, 0x81#8, 0x82#8, 0x83#8, 0x84#8, 0xF0#8, 0xF1#8] := by
  decide

theorem witness_StepRunsTheDecodedInstruction :
    (oneInput (.word 0 (.native 0x0107000000000000#64))).nextTurn = some .input ∧
    (oneInput (.word 0 (.native 0x0107000000000000#64))).inputs = [.word 0 (.native 0x0107000000000000#64)] ∧
    decode (.native 0x0107000000000000#64) = .ok (.get 7#8) := by decide +kernel

theorem witness_TurnsSayWhoMovesNext :
    { oneInput .rst with turns := [.input] }.ready .input = true ∧
    (oneInput .rst).turns = [] ∧
    { oneInput .rst with pendingTicks := 1 }.nextTurn = some .heldTick := by decide +kernel

/-- Client 7 has a packet 0x81 in progress and a word waiting; INIT waits for a held tick. -/
theorem witness_WordsWaitForTheirClientsPacket :
    (let s := { oneInput (.word 7 (.wire 0x82000000#32)) with packets := [⟨5, 63, false, 7⟩] };
      s.inputs = [.word 7 (.wire 0x82000000#32)] ∧ ∃ job ∈ s.packets, job.client = 7) ∧
    (let s := { oneInput (.word 0 (.native 0#64)) with pendingTicks := 1 };
      s.inputs = [.word 0 (.native 0#64)] ∧ 0 < s.pendingTicks ∧ decode (.native 0#64) = .ok .init) ∧
    (oneInput .rst).inputs ≠ [] := by decide +kernel

theorem witness_ReservedWordIsANoOpWithBadOpcode :
    ((oneInput (.word 0 (.wire 0x85000000#32))).nextTurn = some .input ∧
      (oneInput (.word 0 (.wire 0x85000000#32))).inputs = [.word 0 (.wire 0x85000000#32)] ∧
      0x85#8 = BitVec.extractLsb' 24 8 0x85000000#32 ∧
      0x85#8 ∉ [0x80#8, 0x81#8, 0x82#8, 0x83#8, 0x84#8, 0xF0#8, 0xF1#8]) ∧
    ((oneInput (.word 0 (.native 0x0400000000000000#64))).nextTurn = some .input ∧
      (oneInput (.word 0 (.native 0x0400000000000000#64))).inputs = [.word 0 (.native 0x0400000000000000#64)] ∧
      4#8 = BitVec.extractLsb' 56 8 0x0400000000000000#64 ∧ 4 ≤ (4#8).toNat) := by decide +kernel

theorem witness_TableIsMonotoneAndTopBitFree :
    (2#6).toNat ≤ 2 ∧ 62#6 ≠ 63#6 ∧ lookup 3#6 ≠ 0#64 ∧ (20 ≤ (20#6).toNat ∧ lookup 20#6 = lookup 20#6) := by
  decide +kernel

theorem witness_GetAnswersTheCommittedLevel :
    State.reset.inited = false ∧ (booted.inited = true ∧ 24 ≤ (24#8).toNat) ∧
    (booted.inited = true ∧ (23#8).toNat = (23 : Channel).val) := by decide +kernel

theorem witness_SetCommitsTheClampedLevel :
    booted.inited = true ∧ (23#8).toNat = (23 : Channel).val ∧
    (63#6 ≠ (booted.diode 23).cur) ∧ (0#6 = (booted.diode 23).cur) := by decide +kernel

theorem witness_RefusedCommandsChangeNothing :
    State.reset.inited = false ∧ booted.inited = true ∧ 24 ≤ (24#8).toNat := by decide +kernel

/-- A fade of 1000 ms has a tick at every rate, a fade of 0 ms has none. -/
theorem witness_FadeRecordsItsEndpoints :
    booted.inited = true ∧ (23#8).toNat = (23 : Channel).val ∧
    1 ≤ (1000#16).toNat * Config.fadeTickHz / 1000 ∧ (0#16).toNat * Config.fadeTickHz / 1000 = 0 ∧
    63#6 ≠ (booted.diode 23).cur ∧ 0#6 = (booted.diode 23).cur := by
  refine ⟨rfl, rfl, ?_, by simp, by decide +kernel, by decide +kernel⟩
  simp [Config.fadeTickHz]

theorem witness_DurationConversionNeverWraps : 65535 ≤ 65535 ∧ (65535#16).toNat * 65535 / 1000 = 4294836 := by
  decide +kernel

theorem witness_SetThenGetAnswersTheClampedLevel :
    booted.inited = true ∧ (23#8).toNat = (23 : Channel).val ∧ (0#16).toNat * Config.fadeTickHz < 1000 := by
  refine ⟨rfl, rfl, by simp⟩

theorem witness_SetAfterFadeCancelsIt : booted.inited = true ∧ (23#8).toNat = (23 : Channel).val := ⟨rfl, rfl⟩

theorem witness_TickMovesEveryActiveDiode :
    fading.tickArmed = true ∧ fading.inited = true ∧ fading.countersOk ∧
    (fading.diode 6).tick = (fading.diode 6).dur ∧ (fading.diode 7).tick ≠ (fading.diode 7).dur := by
  refine ⟨?_, ?_, fading_inv.2.1, ?_, ?_⟩ <;> decide +kernel

theorem witness_TickIsIgnoredUntilArmed : State.reset.tickArmed = false := rfl

theorem witness_TickChangesNothingWhenQuiescent : booted.quiescent :=
  ⟨rfl, rfl, rfl, by decide +kernel⟩

theorem witness_QuiescentOutputRepeats :
    booted.quiescent ∧ booted.armed = true ∧ (∀ i ∈ [Instr.tick, .slot, .tick], i = .tick ∨ i = .slot) ∧
    [Instr.tick, .slot, .tick].count .slot = 1 :=
  ⟨witness_TickChangesNothingWhenQuiescent, rfl, by decide, by decide⟩

theorem witness_RampLandsAndNeverTurnsBack :
    1 ≤ 4 ∧ 4 ≤ 4 ∧ 0#6 ≤ 1#6 ∧ 0#6 ≤ 0#6 ∧ (((1#6).toNat : Int) - ((0#6).toNat : Int)).natAbs < 4 := by decide

theorem witness_TickLanesAreIndependent :
    booted.tickArmed = fading.tickArmed ∧ booted.diode 6 = fading.diode 6 ∧ booted.columnKept fading 6 := by
  unfold State.columnKept
  decide +kernel

theorem witness_ActiveDiodeLandsAfterItsRemainingTicks :
    fading.Inv ∧ fading.inited = true ∧ (fading.diode 7).active = true ∧
    3 < (fading.diode 7).dur.toNat - (fading.diode 7).tick.toNat := by
  refine ⟨fading_inv, ?_, ?_, ?_⟩ <;> decide +kernel

theorem witness_FadeReachesItsTargetAfterItsTicks :
    booted.Inv ∧ booted.inited = true ∧ (23#8).toNat = (23 : Channel).val ∧
    1000 ≤ (1000#16).toNat * Config.fadeTickHz := by
  refine ⟨booted_inv, rfl, rfl, ?_⟩
  simp [Config.fadeTickHz]

theorem witness_SlotPresentsTheMask : { booted with slot := 62 }.armed = true := rfl

theorem witness_SlotIsIgnoredUntilArmed : State.reset.armed = false := rfl

theorem witness_PatternCyclePresentsTheBuffer : fading.armed = true ∧ fading.slot = 0 ∧ fading.Inv := by
  refine ⟨?_, ?_, fading_inv⟩ <;> decide +kernel

/-- Both halves of the cycle are there for a SET before slot 4, and its ends are `k` = 0 and 63. -/
theorem witness_MixedCycleShowsOldThenNew :
    fading.Inv ∧ fading.armed = true ∧ fading.slot = 0 ∧ fading.between = [] ∧
    (7#8).toNat = (7 : Channel).val ∧ 4 ≤ 63 ∧ 0 ≤ 63 ∧ 63 ≤ 63 := by
  refine ⟨fading_inv, ?_, ?_, ?_, ?_, ?_, ?_, ?_⟩ <;> decide +kernel

theorem witness_VelocityConversionsLoseOneLevel :
    (127#8).toNat ≤ 127 ∧ 127 < (128#8).toNat ∧ (62#6 ≠ 0#6 ∧ 62#6 ≠ 63#6) := by decide

theorem witness_WsetRemembersAndSets :
    ((playingState .loop).inited = true ∧ (playingState .loop).animator.playing = true) ∧
    (booted.inited = true ∧ booted.animator.playing = false) ∧ (23#8).toNat = (23 : Channel).val ∧
    63#6 ≠ (booted.diode 23).cur ∧ 0#6 = (booted.diode 23).cur := by decide +kernel

theorem witness_WsetallTakesItsFirstStep :
    ((playingState .loop).inited = true ∧ (playingState .loop).animator.playing = true) ∧
    (booted.inited = true ∧ booted.animator.playing = false) ∧
    63#6 ≠ (booted.diode 0).cur ∧ 0#6 = (booted.diode 0).cur := by decide +kernel

/-- Packets at an inner channel and at the last one; suppressed by its sample though nothing plays now, and not suppressed
though something does; and one in a block that is not initialised. -/
theorem witness_PacketStepGoesByItsSample :
    (let s := { booted with packets := [⟨5, 64, true, 7⟩] };
      s.nextTurn = some (.packet 0) ∧ s.packets[0]? = some ⟨5, 64, true, 7⟩ ∧ s.animator.playing = false) ∧
    (let s := { playingState .loop with packets := [⟨23, 64, false, 7⟩] };
      s.nextTurn = some (.packet 0) ∧ s.packets[0]? = some ⟨23, 64, false, 7⟩ ∧ s.inited = true ∧
        s.animator.playing = true ∧ 63#6 ≠ (s.diode 23).cur) ∧
    (let s := { State.reset with packets := [⟨5, 64, false, 7⟩] };
      s.nextTurn = some (.packet 0) ∧ s.packets[0]? = some ⟨5, 64, false, 7⟩ ∧ s.inited = false) := by
  decide +kernel

theorem witness_WsetallSetsEveryChannelIn24Steps :
    (booted.inited = true ∧ booted.undisturbed ∧ booted.animator.playing = false) ∧
    ((playingState .loop).inited = true ∧ (playingState .loop).undisturbed ∧
      (playingState .loop).animator.playing = true) :=
  ⟨⟨rfl, booted_undisturbed, rfl⟩, ⟨rfl, booted_undisturbed, rfl⟩⟩

theorem witness_WgetRespondsInEveryCase :
    State.reset.inited = false ∧ (booted.inited = true ∧ 24 ≤ (24#8).toNat) ∧
    (booted.inited = true ∧ (23#8).toNat = (23 : Channel).val) := by decide +kernel

theorem witness_ResetPinActsAsWboot :
    (oneInput .rst).nextTurn = some .input ∧ (oneInput .rst).inputs = [.rst] := by decide +kernel

theorem witness_WplayStartsTheAnimation :
    Config.animationOf 0#8 = some Config.animationZero ∧
    Config.followOf (Config.followId .loop) = some .loop := by
  simp [Config.animationOf, Config.followOf]

/-- Some byte is the id of no follow action: there are four follow actions and more bytes. -/
theorem some_follow_id_is_unknown : ∃ fid : Byte, Config.followOf fid = none := by
  obtain ⟨b, _, hb⟩ := Finset.exists_mem_notMem_of_card_lt_card
    (s := {Config.followId .loop, Config.followId .stopLastFrame, Config.followId .stopOff,
      Config.followId .stopPreviousState})
    (t := ({0#8, 1#8, 2#8, 3#8, 4#8} : Finset Byte)) (lt_of_le_of_lt Finset.card_le_four (by decide))
  simp only [Finset.mem_insert, Finset.mem_singleton, not_or] at hb
  exact ⟨b, by simp [Config.followOf, hb]⟩

theorem witness_WplayRefusesUnknownIds :
    Config.animationOf 99#8 = none ∧
    ∃ fid : Byte, Config.animationOf 0#8 = some Config.animationZero ∧ Config.followOf fid = none := by
  obtain ⟨fid, h⟩ := some_follow_id_is_unknown
  exact ⟨by simp [Config.animationOf], fid, by simp [Config.animationOf], h⟩

theorem witness_WstopStopsTheAnimation :
    (playingState .loop).animator.follow = .loop ∧
    (playingState .stopPreviousState).animator.follow = .stopPreviousState ∧
    (playingState .stopOff).animator.follow = .stopOff ∧
    (playingState .stopLastFrame).animator.follow = .stopLastFrame := by decide +kernel

theorem witness_BusyAnimatorMakesPacketsWait :
    (let s := { oneInput (.word 0 (.wire 0x84000000#32)) with animWork := [.finish] };
      s.animWork ≠ [] ∧ s.inputs = [.word 0 (.wire 0x84000000#32)] ∧ decode (.wire 0x84000000#32) = .ok .wstop) ∧
    decode (.wire 0x83633200#32) = .ok (.wplay 99#8 50#8 0#8) ∧
    (let s := { oneInput (.update 1) with animWork := [.finish] };
      s.animWork ≠ [] ∧ s.inputs = [.update 1]) := by decide +kernel

theorem witness_StopOffDarkensEveryChannel :
    (playingState .stopOff).inited = true ∧ (playingState .stopOff).animator.follow = .stopOff := ⟨rfl, rfl⟩

/-- A playing animator at the end of its `update`, with this follow action. -/
def finishing (f : FollowAction) : State := { playingState f with animWork := [.finish] }

/-- An animator of 5 seconds at progress 0: after 1 second it is short of the end, after 5 it is there. -/
theorem witness_UpdateAdvancesTheAnimation :
    ((oneInput (.update 1)).nextTurn = some .input ∧ (oneInput (.update 1)).inputs = [.update 1] ∧
      (oneInput (.update 1)).animator.playing = false) ∧
    ({ playingState .loop with inputs := [.update 1] }.nextTurn = some .input ∧
      { playingState .loop with inputs := [.update 5] }.nextTurn = some .input ∧
      (playingState .loop).animator.playing = true ∧
      (playingState .loop).animator.progress + 1 / (playingState .loop).animator.duration < 1 ∧
      1 ≤ (playingState .loop).animator.progress + 5 / (playingState .loop).animator.duration) ∧
    (let s := { booted with animWork := [.set 23 63#32, .finish] };
      s.nextTurn = some .animator ∧ s.animWork = [.set 23 63#32, .finish]) ∧
    (∀ f ∈ [FollowAction.loop, .stopLastFrame, .stopOff, .stopPreviousState],
      (finishing f).nextTurn = some .animator ∧ (finishing f).animWork = [.finish] ∧
        (finishing f).animator.follow = f) := by
  decide +kernel

theorem witness_LoopStartsAgainAfterItsDuration :
    let s := { playingState .loop with inputs := List.replicate 250 (.update (1 / 50)) }
    s.undisturbed ∧ s.animator.playing = true ∧ s.animator.follow = .loop ∧ s.animator.progress = 0 ∧
      s.animator.duration = 5 ∧ s.inputs = List.replicate 250 (.update (1 / 50)) :=
  ⟨⟨rfl, rfl, rfl, rfl, rfl⟩, rfl, rfl, rfl, rfl, rfl⟩

theorem witness_StopOffEndsDarkAfterItsDuration :
    let s := { playingState .stopOff with inputs := List.replicate 250 (.update (1 / 50)) }
    s.inited = true ∧ s.undisturbed ∧ s.animator.playing = true ∧ s.animator.follow = .stopOff ∧
      s.animator.progress = 0 ∧ s.animator.duration = 5 ∧
      s.inputs = List.replicate 250 (.update (1 / 50)) :=
  ⟨rfl, ⟨rfl, rfl, rfl, rfl, rfl⟩, rfl, rfl, rfl, rfl, rfl⟩

theorem witness_EffectsLightOneChannel :
    (((12 : Channel).val : Rat) ≤ 1 / 2 * 24 ∧ (1 / 2 : Rat) * 24 < ((12 : Channel).val : Rat) + 1) ∧
    (49 / 100 : Rat) < 1 / 2 ∧ (1 / 2 : Rat) ≤ 1 / 2 := by decide +kernel

theorem witness_EveryStepKeepsTheInvariant :
    ∃ t, (oneInput (.word 0 (.native 0x0200000000100000#64))).Inv ∧
      step (oneInput (.word 0 (.native 0x0200000000100000#64))) = .next t :=
  ⟨_, oneInput_inv _, rfl⟩

theorem witness_EveryStepKeepsTheDurationClamped :
    let s := { oneInput .rst with animator := { Animator.reset with duration := Config.minDuration, playing := true } }
    ∃ t, s.animatorOk ∧ step s = .next t :=
  ⟨_, fun _ => ⟨le_refl _, Config.minDuration_le_maxDuration⟩, rfl⟩

/-- A step that takes no word takes no instruction and is no reset. -/
theorem not_takes_of_packet {s : State} {k : Nat} (h : s.nextTurn = some (.packet k)) :
    (∀ i, ¬ s.takes i) ∧ ¬ s.takesReset := by
  refine ⟨fun i t => ?_, fun r => ?_⟩
  · have := t.1
    simp [h] at this
  · obtain t | ⟨t, _⟩ := r
    · have := t.1
      simp [h] at this
    · simp [h] at t

/-- A later step of packet 0x81 takes no INIT and is no reset. -/
theorem witness_OnlyInitAndResetWriteTheLifecycle :
    let s := { booted with packets := [⟨5, 64, false, 7⟩] }
    ∃ t, step s = .next t ∧ ¬ s.takes .init ∧ ¬ s.takesReset := by
  intro s
  obtain ⟨h, r⟩ := not_takes_of_packet (s := s) (k := 0) (by decide +kernel)
  exact ⟨_, rfl, h _, r⟩

/-- A pulse on `fade_tick` meets every hypothesis of both parts. -/
theorem witness_OnlySlotDrivesTheOutput :
    let s := { fading with inputs := [.word 0 .fadeTick] }
    ∃ t, step s = .next t ∧ ¬ s.takesReset ∧ ¬ s.takes .slot ∧ ¬ s.takes .init ∧ s.between = [] ∧
      (∀ ch vel, ¬ s.takes (.wset ch vel)) ∧ (∀ vel, ¬ s.takes (.wsetall vel)) ∧
      (∀ k, s.nextTurn ≠ some (.packet k)) := by
  intro s
  have hin : s.inputs = [.word 0 .fadeTick] := rfl
  have only (i : Instr) (hi : i ≠ .tick) : ¬ s.takes i := by
    rintro ⟨_, c, p, xs, he, hd⟩
    rw [hin] at he
    cases he
    cases hd
    exact hi rfl
  refine ⟨_, rfl, ?_, only _ (by simp), only _ (by simp), by decide +kernel, fun _ _ => only _ (by simp),
    fun _ => only _ (by simp), fun k h => ?_⟩
  · rintro (h | ⟨_, xs, he⟩)
    · exact only _ (by simp) h
    · rw [hin] at he
      cases he
  · have : s.nextTurn = some .input := by decide +kernel
    simp [this] at h

theorem witness_TextLinesAssemble :
    255 < 256 ∧ (-2147483648 : Int) ≤ -2147483648 ∧ (2147483647 : Int) ≤ 2147483647 ∧ 65535 < 65536 := by decide

theorem witness_ChannelCommandsKeepOtherChannels :
    ∃ t, Instr.wset 22#8 127#8 ∈ [Instr.set 22#8 63#32, .fade 22#8 63#32 0#16, .wset 22#8 127#8] ∧
      (23 : Channel).val ≠ (22#8).toNat ∧ exec (.wset 22#8 127#8) booted = .next t :=
  ⟨_, by decide, by decide, rfl⟩

end Sys2Proof.Tests
end

section
/-! What a step of the machine can do, said once: the writes a step is made of, the moves an agent can make, and the
principle that what every write keeps, every step keeps. The whole-machine statements of the state (10_state.md) follow. -/

namespace Sys2Proof.Machine

variable (s : State)

/-! ### Writes that leave the block's storage and outputs alone -/

/-- `t` is `s` but for what is still to arrive, who moves next, and the ticks held: what choosing an agent writes. -/
def State.sameButQueue (s t : State) : Prop :=
  t = { s with pendingTicks := t.pendingTicks, inputs := t.inputs, issuer := t.issuer, turns := t.turns }

/-- `t` is `s` but for the queue of arrivals, what is reported, the animator, the operations in progress, and the pin
`arm_ok`: the lifecycle, the diode file, the buffer, `stored` and the output driver stand as they stood. -/
def State.sameButNotes (s t : State) : Prop :=
  t = { s with
        pendingTicks := t.pendingTicks, errorLog := t.errorLog, animator := t.animator, returns := t.returns
        responses := t.responses, packets := t.packets, animWork := t.animWork, armOk := t.armOk
        inputs := t.inputs, issuer := t.issuer, turns := t.turns }

theorem State.sameButQueue.toNotes {s t : State} (h : s.sameButQueue t) : s.sameButNotes t := by
  unfold State.sameButQueue at h
  rw [h]
  rfl

theorem State.sameButNotes_rejectWord (e : DecodeError) : s.sameButNotes (s.rejectWord e) := by
  cases e <;> rfl

theorem State.sameButNotes_updateNow (dt : Rat) : s.sameButNotes (s.updateNow dt) := by
  obtain ⟨_, h⟩ | ⟨_, _, h⟩ | ⟨_, _, h⟩ := s.updateNow_cases dt <;> rw [h] <;> rfl

theorem State.sameButNotes_playChecked {s t : State} {id ds fid : Byte} (h : s.playChecked id ds fid = .ok t) :
    s.sameButNotes t := by
  obtain ⟨_, e⟩ | ⟨_, _, _, e⟩ | ⟨_, _, _, _, e⟩ := s.playChecked_cases id ds fid <;> rw [e] at h <;> cases h
  rfl

/-! ### What one step can be -/

/-- What the agent that moves in the step of `s` can make of `u`, the state with the agent chosen (R41). -/
inductive State.Move (s u : State) : State → Prop where
  | nothing : State.Move s u u
  | heldTick {t : State} (h : exec .tick u = .next t) : State.Move s u t
  | packet (k : Nat) (h : s.nextTurn = some (.packet k)) : State.Move s u (u.packetAdvance k)
  | animator : State.Move s u u.animAdvance
  | word {t : State} (i : Instr) (hi : s.takes i) (h : exec i u = .next t) : State.Move s u t
  | rejected (e : DecodeError) : State.Move s u (u.rejectWord e)
  | rst (h : s.takesReset) : State.Move s u u.hardwareReset
  | armOk (b : Bool) : State.Move s u { u with armOk := b }
  | update (dt : Rat) : State.Move s u (u.updateNow dt)

/-- Taking the arrival at the head of the queue is a move of the step (R22). -/
theorem State.move_of_accept {s t v : State} {x : Input} {xs : List Input} (hv : s.sameButQueue v)
    (hturn : s.nextTurn = some .input) (hin : s.inputs = x :: xs) (h : v.accept exec x = .next t) :
    ∃ u, s.sameButQueue u ∧ s.Move u t := by
  cases x with
  | word client p =>
    have hu : s.sameButQueue { v with issuer := client } := by
      unfold State.sameButQueue at hv ⊢
      rw [hv]
    unfold State.accept at h
    cases hd : decode p with
    | ok i =>
      simp only [hd] at h
      exact ⟨_, hu, .word i ⟨hturn, client, p, xs, hin, hd⟩ h⟩
    | reject e =>
      simp only [hd] at h
      cases h
      exact ⟨_, hu, .rejected e⟩
  | rst =>
    cases h
    exact ⟨v, hv, .rst (.inr ⟨hturn, xs, hin⟩)⟩
  | armOk b =>
    cases h
    exact ⟨v, hv, .armOk b⟩
  | update dt =>
    cases h
    exact ⟨v, hv, .update dt⟩

/-- Every step is a move of one agent (R41). -/
theorem step_move {s t : State} (h : step s = .next t) : ∃ u, s.sameButQueue u ∧ s.Move u t := by
  have hu : s.sameButQueue { s with turns := s.turns.tail } := rfl
  unfold step State.stepWith State.runTurn at h
  split at h
  next => cases h; exact ⟨_, hu, .nothing⟩
  next => exact ⟨{ s with turns := s.turns.tail, pendingTicks := s.pendingTicks - 1 }, rfl, .heldTick h⟩
  next k hk => cases h; exact ⟨_, hu, .packet k hk⟩
  next => cases h; exact ⟨_, hu, .animator⟩
  next hturn =>
    split at h
    next => cases h; exact ⟨_, hu, .nothing⟩
    next x xs hin =>
      exact State.move_of_accept (v := { s with turns := s.turns.tail, inputs := xs }) rfl hturn hin h

/-! ### What every write keeps, every step keeps -/

/-- `P` does not look at the notes. -/
def KeptByNotes (P : State → Prop) : Prop := ∀ s t : State, s.sameButNotes t → P s → P t

/-- `P` is kept by the writes that any agent may make: notes, and the engine's writes to the diode file and the buffer
for SET, FADE and TICK. -/
structure KeptByEngine (P : State → Prop) : Prop where
  notes : KeptByNotes P
  setLevel : ∀ (s : State) (c : Channel) (level : Int), P s → P (s.setLevel c level)
  startFade : ∀ (s : State) (c : Channel) (t : Level) (ms : BitVec 16),
    P s → P (s.startFade c t (fadeTicks Config.fadeTickHz ms))
  tickAll : ∀ s : State, P s → P s.tickAll

/-- `P` is kept by the engine's writes, and by each of the other four, writing `stored`, SLOT, INIT and a reset, where
the step may make it. -/
structure KeptByWrites (P : State → Prop) (mayStore maySlot mayInit mayReset : Prop) : Prop
    extends KeptByEngine P where
  setStored : mayStore → ∀ (s : State) (c : Channel) (v : Level), P s → P (s.setStored c v)
  slotStep : maySlot → ∀ s : State, P s → P s.slotStep
  init : mayInit → ∀ s t : State, execInit s = .next t → P s → P t
  reset : mayReset → ∀ s : State, P s → P s.hardwareReset

section
variable {P : State → Prop}

theorem KeptByNotes.conclude (hP : KeptByNotes P) {s : State} (k : Command) {r : Except LogEntry State} (hs : P s)
    (hr : ∀ t, r = .ok t → P t) : P (s.conclude k r) := by
  cases r with
  | ok t => exact hP t _ rfl (hr t rfl)
  | error e => exact hP s _ rfl hs

theorem KeptByEngine.setFromFrame (hP : KeptByEngine P) (s : State) (x : Channel × LevelOperand) (hs : P s) :
    P (s.setFromFrame x) := by
  obtain ⟨_, h⟩ | ⟨_, h⟩ := s.setFromFrame_cases x <;> rw [h]
  · exact hP.notes _ _ rfl (hP.setLevel s _ _ hs)
  · exact hP.notes s _ rfl hs

theorem KeptByEngine.issueFrame (hP : KeptByEngine P) {s : State} (frame : List (Channel × LevelOperand)) (hs : P s) :
    P (s.issueFrame frame) :=
  State.issueFrame_induction hP.setFromFrame frame s hs

theorem KeptByEngine.finishUpdate (hP : KeptByEngine P) {s : State} (hs : P s) : P s.finishUpdate := by
  obtain ⟨_, h⟩ | ⟨_, h⟩ | ⟨_, h⟩ | ⟨_, h⟩ := s.finishUpdate_cases <;> rw [h]
  · exact hP.notes s _ rfl hs
  · exact hP.notes s _ rfl hs
  · exact hP.issueFrame _ (hP.notes s _ rfl hs)
  · exact hP.notes s _ rfl hs

theorem KeptByEngine.animAdvance (hP : KeptByEngine P) {s : State} (hs : P s) : P s.animAdvance := by
  unfold State.animAdvance
  split
  next => exact hs
  next a rest _ =>
    have hrest : P { s with animWork := rest } := hP.notes s _ rfl hs
    cases a with
    | set c level => exact hP.setFromFrame _ _ hrest
    | finish => exact hP.finishUpdate hrest

theorem KeptByEngine.execTick (hP : KeptByEngine P) {s t : State} (h : execTick s = .next t) (hs : P s) : P t := by
  cases h
  split
  · exact hP.tickAll s hs
  · exact hs

section
variable (hP : KeptByEngine P) (hst : ∀ (s : State) (c : Channel) (v : Level), P s → P (s.setStored c v))
include hP hst

theorem KeptByEngine.requestLevel {s : State} (c : Channel) (level : Nat) (suppressed : Bool) (hs : P s) :
    P (s.requestLevel c level suppressed) := by
  have hs' := hst s c (clampLevel level) hs
  cases suppressed
  · exact hP.setLevel _ _ _ hs'
  · exact hs'

theorem KeptByEngine.setAllStep {s : State} (job : SetAll) (hs : P s) : P (s.setAllStep job).1 := by
  have hr := hP.requestLevel hst job.next job.level job.suppressed hs
  unfold State.setAllStep
  split
  · split
    · exact hP.notes _ _ rfl hr
    · exact hr
  · exact hP.notes (s.setStored job.next (clampLevel job.level)) _ rfl (hst s _ _ hs)

theorem KeptByEngine.packetAdvance {s : State} (k : Nat) (hs : P s) : P (s.packetAdvance k) := by
  unfold State.packetAdvance
  split
  next => exact hs
  next job _ =>
    have hstep := hP.setAllStep hst job hs
    split <;> next e => rw [e] at hstep; exact hP.notes _ _ rfl hstep

theorem KeptByEngine.execWsetall {s t : State} {vel : Byte} (h : execWsetall vel s = .next t) (hs : P s) : P t := by
  cases h
  split
  · have hstep := hP.setAllStep hst ⟨0, velToLevel vel, s.animator.playing, s.issuer⟩ hs
    split
    next e => rw [e] at hstep; exact hP.notes _ _ rfl hstep
    next e => rw [e] at hstep; exact hstep
  · exact hP.notes s _ rfl hs

theorem KeptByEngine.execWset {s t : State} {ch vel : Byte} (h : execWset ch vel s = .next t) (hs : P s) : P t := by
  cases h
  refine hP.notes.conclude _ hs fun t ht => ?_
  split at ht <;> cases ht
  exact hP.requestLevel hst _ _ _ hs

end

theorem KeptByEngine.execSet (hP : KeptByEngine P) {s t : State} {index : Byte} {level : LevelOperand}
    (h : execSet index level s = .next t) (hs : P s) : P t := by
  cases h
  refine hP.notes.conclude _ hs fun t ht => ?_
  obtain ⟨_, _, e⟩ | ⟨c, _, e⟩ := s.setChecked_cases .set index (signedLevel level) <;> rw [e] at ht <;> cases ht
  exact hP.setLevel s c _ hs

theorem KeptByEngine.execFade (hP : KeptByEngine P) {s t : State} {index : Byte} {level : LevelOperand}
    {ms : BitVec 16} (h : execFade index level ms s = .next t) (hs : P s) : P t := by
  cases h
  refine hP.notes.conclude _ hs fun t ht => ?_
  obtain ⟨_, _, e⟩ | ⟨c, _, e⟩ := s.fadeChecked_cases Config.fadeTickHz index level ms <;> rw [e] at ht <;> cases ht
  exact hP.startFade s c _ ms hs

/-- The instructions that write `stored` besides INIT: packets 0x80 and 0x81 (R21). -/
def storesLevels (i : Instr) : Prop := (∃ ch vel, i = .wset ch vel) ∨ ∃ vel, i = .wsetall vel

/-- An instruction keeps what the writes it may make keep. -/
theorem KeptByWrites.exec {i : Instr} (hP : KeptByWrites P (storesLevels i) (i = .slot) (i = .init) (i = .wboot))
    {s t : State} (h : exec i s = .next t) (hs : P s) : P t := by
  have hE := hP.toKeptByEngine
  cases i with
  | init => exact hP.init rfl s t h hs
  | get index =>
    cases h
    split <;> exact hE.notes s _ rfl hs
  | set index level => exact hE.execSet h hs
  | fade index level ms => exact hE.execFade h hs
  | wset ch vel => exact hE.execWset (hP.setStored (.inl ⟨ch, vel, rfl⟩)) h hs
  | wsetall vel => exact hE.execWsetall (hP.setStored (.inr ⟨vel, rfl⟩)) h hs
  | wget ch =>
    cases h
    split <;> exact hE.notes s _ rfl hs
  | wplay id ds fid =>
    cases h
    exact hE.notes.conclude _ hs fun t ht => hE.notes s t (State.sameButNotes_playChecked ht) hs
  | wstop =>
    cases h
    exact hE.notes _ _ rfl (hE.issueFrame _ (hE.notes s s.stopFields rfl hs))
  | wver =>
    cases h
    exact hE.notes s _ rfl hs
  | wboot =>
    cases h
    exact hE.notes _ _ rfl (hP.reset rfl s hs)
  | tick => exact hE.execTick h hs
  | slot =>
    cases h
    exact hP.slotStep rfl s hs
  | lookup n =>
    cases h
    exact hE.notes s _ rfl hs

/-- The step of `s` may write `stored` and is no INIT: packet 0x80 or 0x81, or a later step of packet 0x81 (R21). -/
def State.stepStoresLevels (s : State) : Prop :=
  (∃ i, storesLevels i ∧ s.takes i) ∨ ∃ k, s.nextTurn = some (.packet k)

/-- A step keeps what the writes it may make keep: the one case analysis behind the whole-machine statements. -/
theorem KeptByWrites.step {s t : State}
    (hP : KeptByWrites P s.stepStoresLevels (s.takes .slot) (s.takes .init) s.takesReset)
    (h : step s = .next t) (hs : P s) : P t := by
  have hE := hP.toKeptByEngine
  obtain ⟨u, hu, hmove⟩ := step_move h
  have hPu : P u := hE.notes s u hu.toNotes hs
  cases hmove with
  | nothing => exact hPu
  | heldTick h => exact hE.execTick h hPu
  | packet k hk => exact hE.packetAdvance (hP.setStored (.inr ⟨k, hk⟩)) k hPu
  | animator => exact hE.animAdvance hPu
  | word i hi h =>
    refine KeptByWrites.exec (i := i) ⟨hE, fun m => hP.setStored (.inl ⟨i, m, hi⟩), ?_, ?_, ?_⟩ h hPu
    · rintro rfl; exact hP.slotStep hi
    · rintro rfl; exact hP.init hi
    · rintro rfl; exact hP.reset (.inl hi)
  | rejected e => exact hE.notes u _ (u.sameButNotes_rejectWord e) hPu
  | rst hr => exact hP.reset hr u hPu
  | armOk b => exact hE.notes u _ rfl hPu
  | update dt => exact hE.notes u _ (u.sameButNotes_updateNow dt) hPu

/-- SET, FADE and TICK are column writes, so that what notes and column writes keep, the engine's writes keep. -/
theorem KeptByNotes.keptByEngine (hn : KeptByNotes P)
    (hw : ∀ s t : State, s.sameButColumnWrite t → P s → P t) : KeptByEngine P where
  notes := hn
  setLevel s c level := hw s _ (s.setLevel_frame c level)
  startFade s c t _ := hw s _ (s.startFade_frame c t _)
  tickAll s := hw s _ s.tickAll_frame

end

end Sys2Proof.Machine
end

section
/-! The invariant of the engine (10_state.md R16, R17, R19; 42_fade_tick.md R104), channel by channel, and the
whole-machine statements about the state. -/

namespace Sys2Proof.Machine

variable (s : State)

/-! ### One channel's record and column -/

/-- The record and the column of channel `c` stand as they stood. -/
def State.channelKept (s t : State) (c : Channel) : Prop := t.diode c = s.diode c ∧ s.columnKept t c

theorem State.channelKept_refl (c : Channel) : s.channelKept s c := ⟨rfl, fun _ => rfl⟩

/-- Which channels stand as they stood is no matter of the notes taken afterwards. -/
theorem State.channelKept_keptByNotes (c : Channel) : KeptByNotes fun t => s.channelKept t c := by
  intro t u hu ht
  unfold State.sameButNotes at hu
  rw [hu]
  exact ht

theorem State.channelKept_setLevel {c c' : Channel} (h : c' ≠ c) (level : Int) :
    s.channelKept (s.setLevel c level) c' :=
  ⟨by rw [State.diode_setLevel, if_neg h], s.otherColumnsKept_setLevel c level c' h⟩

theorem State.otherColumnsKept_startFade (c : Channel) (t : Level) (d : BitVec 32) :
    s.otherColumnsKept (s.startFade c t d) c := by
  intro c' h
  unfold State.startFade
  split
  · exact State.otherColumnsKept_applyIfChanged _ c t c' h
  · exact fun _ => rfl

theorem State.channelKept_startFade {c c' : Channel} (h : c' ≠ c) (t : Level) (d : BitVec 32) :
    s.channelKept (s.startFade c t d) c' :=
  ⟨by rw [State.diode_startFade, if_neg h], s.otherColumnsKept_startFade c t d c' h⟩

theorem State.channelKept_requestLevel {c c' : Channel} (h : c' ≠ c) (level : Nat) (suppressed : Bool) :
    s.channelKept (s.requestLevel c level suppressed) c' := by
  cases suppressed
  · exact (s.setStored c (clampLevel level)).channelKept_setLevel h level
  · exact s.channelKept_refl c'

/-- A check that passes names the channel of the index: a channel with another number is another one (R53, R161). -/
theorem State.ne_of_checkChannel {s : State} {k : Command} {index : Byte} {c c' : Channel}
    (h : s.checkChannel k index = .ok c) (hne : c'.val ≠ index.toNat) : c' ≠ c := by
  obtain ⟨_, e⟩ | ⟨_, _, e⟩ | ⟨_, d, hd, e⟩ := s.checkChannel_cases k index <;> rw [e] at h <;> cases h
  rintro rfl
  exact hne hd.symm

/-- Settles O55: whatever the outcome, only the channel the index names is written. -/
theorem channelCommandsKeepOtherChannels : Obligations.ChannelCommandsKeepOtherChannels := by
  intro index velocity level ms s t i c hi hne h
  have hn := s.channelKept_keptByNotes c
  have hs := s.channelKept_refl c
  simp only [List.mem_cons, List.not_mem_nil, or_false] at hi
  obtain rfl | rfl | rfl := hi <;> cases h <;> refine hn.conclude _ hs fun u hu => ?_
  case inl =>
    obtain ⟨_, _, e⟩ | ⟨_, hc, e⟩ := s.setChecked_cases .set index (signedLevel level) <;> rw [e] at hu <;> cases hu
    exact s.channelKept_setLevel (State.ne_of_checkChannel hc hne) _
  case inr.inl =>
    obtain ⟨_, _, e⟩ | ⟨_, hc, e⟩ := s.fadeChecked_cases Config.fadeTickHz index level ms <;> rw [e] at hu <;> cases hu
    exact s.channelKept_startFade (State.ne_of_checkChannel hc hne) _ _
  case inr.inr =>
    split at hu <;> cases hu
    next hc => exact s.channelKept_requestLevel (State.ne_of_checkChannel hc hne) _ _

/-! ### What only INIT, SLOT and a reset write -/

/-- The lifecycle flags stand as they stood. -/
def State.lifecycleKept (s t : State) : Prop :=
  t.inited = s.inited ∧ t.armed = s.armed ∧ t.tickArmed = s.tickArmed

theorem State.sameButColumnWrite.lifecycleKept {s t : State} (h : s.sameButColumnWrite t) : s.lifecycleKept t := by
  rw [h.1]
  exact ⟨rfl, rfl, rfl⟩

theorem State.lifecycleKept_slotStep : s.lifecycleKept s.slotStep := by
  unfold State.slotStep
  split <;> exact ⟨rfl, rfl, rfl⟩

theorem State.lifecycleKept_trans {s t u : State} (h : s.lifecycleKept t) (k : t.lifecycleKept u) :
    s.lifecycleKept u := by
  obtain ⟨h₁, h₂, h₃⟩ := h
  obtain ⟨k₁, k₂, k₃⟩ := k
  exact ⟨k₁.trans h₁, k₂.trans h₂, k₃.trans h₃⟩

theorem State.lifecycleKept_keptByEngine : KeptByEngine s.lifecycleKept := by
  refine KeptByNotes.keptByEngine (fun t u hu ht => ?_) fun t u hu ht => State.lifecycleKept_trans ht hu.lifecycleKept
  unfold State.sameButNotes at hu
  rw [hu]
  exact ht

/-- Settles O53: column writes, notes, `stored` and SLOT leave the three flags alone. -/
theorem onlyInitAndResetWriteTheLifecycle : Obligations.OnlyInitAndResetWriteTheLifecycle := by
  intro s t h hinit hreset
  have hwrites : KeptByWrites s.lifecycleKept s.stepStoresLevels (s.takes .slot) (s.takes .init) s.takesReset :=
    { s.lifecycleKept_keptByEngine with
      setStored := fun _ _ _ _ ht => ht
      slotStep := fun _ u hu => State.lifecycleKept_trans hu u.lifecycleKept_slotStep
      init := fun hi => absurd hi hinit
      reset := fun hr => absurd hr hreset }
  exact hwrites.step h ⟨rfl, rfl, rfl⟩

/-- The output driver's outputs stand as they stood, `slot` too where `slotToo` holds, and no pulse is listed to fall
inside a later column write. -/
def State.outputKept (slotToo : Prop) (s t : State) : Prop :=
  t.between = [] ∧ t.q = s.q ∧ t.chain = s.chain ∧ t.frames = s.frames ∧ t.line = s.line ∧
    (slotToo → t.slot = s.slot)

theorem State.outputKept_keptByEngine (slotToo : Prop) : KeptByEngine (s.outputKept slotToo) := by
  refine KeptByNotes.keptByEngine (fun t u hu ht => ?_) fun t u hu ht => ?_
  · unfold State.sameButNotes at hu
    rw [hu]
    exact ht
  · have he := hu.2 ht.1
    unfold State.sameButEngine at he
    rw [he]
    exact ht

theorem State.stored_keptByEngine : KeptByEngine fun t => t.stored = s.stored := by
  refine KeptByNotes.keptByEngine (fun t u hu ht => ?_) fun t u hu ht => ?_
  · unfold State.sameButNotes at hu
    rw [hu]
    exact ht
  · rw [hu.1]
    exact ht

/-- INIT writes `slot`, and nothing else of the output driver (R81). -/
theorem State.outputKept_execInit {slotToo : Prop} (hslot : ¬ slotToo) {s t u : State} (h : execInit t = .next u)
    (ht : s.outputKept slotToo t) : s.outputKept slotToo u := by
  obtain ⟨hb, hq, hc, hf, hl, _⟩ := ht
  cases h
  split <;> exact ⟨hb, hq, hc, hf, hl, fun m => absurd m hslot⟩

theorem State.stored_slotStep : s.slotStep.stored = s.stored := by
  unfold State.slotStep
  split <;> rfl

/-- Settles O54: with no pulse inside them the column writes reach no field of the output driver, and none of them
reaches `stored`. -/
theorem onlySlotDrivesTheOutput : Obligations.OnlySlotDrivesTheOutput := by
  intro s t h hreset
  refine ⟨fun hslot hbetween => ?_, fun hinit hwset hwsetall hpacket => ?_⟩
  · have hwrites : KeptByWrites (s.outputKept (¬ s.takes .init)) s.stepStoresLevels (s.takes .slot) (s.takes .init)
        s.takesReset :=
      { s.outputKept_keptByEngine _ with
        setStored := fun _ _ _ _ ht => ht
        slotStep := fun hs => absurd hs hslot
        init := fun hi _ _ => State.outputKept_execInit (not_not_intro hi)
        reset := fun hr => absurd hr hreset }
    exact (hwrites.step h ⟨hbetween, rfl, rfl, rfl, rfl, fun _ => rfl⟩).2
  · have hstore : ¬ s.stepStoresLevels := by
      rintro (⟨_, ⟨ch, vel, rfl⟩ | ⟨vel, rfl⟩, hi⟩ | ⟨k, hk⟩)
      · exact hwset ch vel hi
      · exact hwsetall vel hi
      · exact hpacket k hk
    have hwrites : KeptByWrites (fun u => u.stored = s.stored) s.stepStoresLevels (s.takes .slot) (s.takes .init)
        s.takesReset :=
      { s.stored_keptByEngine with
        setStored := fun hm => absurd hm hstore
        slotStep := fun _ u hu => u.stored_slotStep.trans hu
        init := fun hi => absurd hi hinit
        reset := fun hr => absurd hr hreset }
    exact hwrites.step h rfl

/-! ### The invariant, channel by channel -/

/-- A diode record meets its bounds, and, if active, stands on its ramp (R14, R16, R104). -/
def Diode.fadeOk (d : Diode) : Prop :=
  d.tick.toNat ≤ d.dur.toNat ∧ d.dur.toNat ≤ 4294836 ∧
    (d.active = true → (d.cur.toNat : Int) = rampAt d.src d.tgt d.dur.toNat d.tick.toNat)

/-- What the invariant says of one channel. -/
def State.channelOk (s : State) (c : Channel) : Prop :=
  (s.diode c).fadeOk ∧ s.columnShows c (lookup (s.diode c).cur)

/-- The invariant is the flags' part, and each channel's in an initialised block. -/
theorem State.inv_iff : s.Inv ↔ s.lifecycleOk ∧ (s.inited = true → ∀ c, s.channelOk c) := by
  constructor
  · rintro ⟨hl, hcounters, hbuffer, hramps⟩
    exact ⟨hl, fun hi c =>
      ⟨⟨(hcounters hi c).1, (hcounters hi c).2, hramps hi c⟩, hbuffer hi c⟩⟩
  · rintro ⟨hl, hch⟩
    refine ⟨hl, fun hi c => ?_, fun hi c => (hch hi c).2, fun hi c => ?_⟩
    · obtain ⟨⟨htick, hdur, _⟩, _⟩ := hch hi c
      exact ⟨htick, hdur⟩
    · obtain ⟨⟨_, _, hramp⟩, _⟩ := hch hi c
      exact hramp

theorem State.lifecycleKept.lifecycleOk {s t : State} (h : s.lifecycleKept t) (hs : s.lifecycleOk) :
    t.lifecycleOk := by
  obtain ⟨hi, ha, ht⟩ := h
  unfold State.lifecycleOk at hs ⊢
  rwa [hi, ha, ht]

/-- A write that keeps the flags and every channel's part keeps the invariant. -/
theorem State.Inv.of_channels {s t : State} (hs : s.Inv) (hl : s.lifecycleKept t)
    (hch : ∀ c, s.channelOk c → t.channelOk c) : t.Inv := by
  rw [State.inv_iff] at hs ⊢
  obtain ⟨hflags, hchannels⟩ := hs
  exact ⟨hl.lifecycleOk hflags, fun hi c => hch c (hchannels (hl.1 ▸ hi) c)⟩

theorem State.channelKept.channelOk {s t : State} {c : Channel} (h : s.channelKept t c) (hs : s.channelOk c) :
    t.channelOk c := by
  obtain ⟨hd, hcol⟩ := h
  obtain ⟨hfade, hshows⟩ := hs
  unfold State.channelOk
  rw [hd]
  exact ⟨hfade, fun j => (hcol j).trans (hshows j)⟩

/-! ### What SET, FADE and TICK make of a channel -/

/-- An idle record with its duration in bounds needs no ramp (R16). -/
theorem Diode.fadeOk_of_tick_eq_dur {d : Diode} (h : d.tick = d.dur) (hdur : d.dur.toNat ≤ 4294836) : d.fadeOk :=
  ⟨by rw [h], hdur, by simp [Diode.active, Diode.idle, h]⟩

/-- Before its first tick a fade stands at its source (R85). -/
theorem rampAt_zero (src tgt : Level) (d : Nat) : rampAt src tgt d 0 = src.toNat := by
  simp [rampAt]

/-- A duration in ticks keeps the bound of R14, at any rate R7 admits (R86). -/
theorem fadeTicks_le (ms : BitVec 16) : (fadeTicks Config.fadeTickHz ms).toNat ≤ 4294836 := by
  have hrate : Config.fadeTickHz ≤ 65535 := Config.fadeTickHzPred.isLt
  have hms : ms.toNat ≤ 65535 := Nat.le_of_lt_succ ms.isLt
  have hprod : ms.toNat * Config.fadeTickHz ≤ 65535 * 65535 := Nat.mul_le_mul hms hrate
  unfold fadeTicks
  rw [BitVec.toNat_ofNat]
  omega

/-- A tick moves an active diode one place along its ramp, and no further than its end (R100, R104). -/
theorem Diode.fadeOk.ticked {d : Diode} (h : d.fadeOk) : d.ticked.fadeOk := by
  obtain ⟨htick, hdur, hramp⟩ := h
  unfold Diode.ticked
  split
  · exact ⟨htick, hdur, hramp⟩
  · rename_i hidle
    have hne : d.tick.toNat ≠ d.dur.toNat := fun e => hidle (by simp [Diode.idle, BitVec.eq_of_toNat_eq e])
    have hlt : d.tick.toNat < d.dur.toNat := by omega
    have hnext : (d.tick + 1#32).toNat = d.tick.toNat + 1 := by
      rw [BitVec.toNat_add, BitVec.toNat_ofNat]
      omega
    refine ⟨hnext.trans_le hlt, hdur, fun _ => ?_⟩
    simpa only [hnext] using d.rampLevel_toNat hlt

theorem State.channelOk.setLevel {s : State} {c' : Channel} (h : s.channelOk c') (c : Channel) (level : Int) :
    (s.setLevel c level).channelOk c' := by
  by_cases hc : c' = c
  · subst hc
    obtain ⟨⟨_, hdur, _⟩, hshows⟩ := h
    unfold State.channelOk
    rw [State.diode_setLevel, if_pos rfl]
    exact ⟨Diode.fadeOk_of_tick_eq_dur rfl hdur, s.columnShows_setLevel c' level hshows⟩
  · exact (s.channelKept_setLevel hc level).channelOk h

theorem State.columnShows_startFade (c : Channel) (t : Level) (d : BitVec 32)
    (h : s.columnShows c (lookup (s.diode c).cur)) :
    (s.startFade c t d).columnShows c (lookup ((s.startFade c t d).diode c).cur) := by
  rw [State.diode_startFade, if_pos rfl]
  unfold State.startFade
  split
  · apply State.columnShows_applyIfChanged
    rw [State.diode_setDiode_self]
    exact h
  · exact h

theorem State.channelOk.startFade {s : State} {c' : Channel} (h : s.channelOk c') (c : Channel) (t : Level)
    (ms : BitVec 16) : (s.startFade c t (fadeTicks Config.fadeTickHz ms)).channelOk c' := by
  by_cases hc : c' = c
  · subst hc
    refine ⟨?_, s.columnShows_startFade c' t _ h.2⟩
    rw [State.diode_startFade, if_pos rfl]
    by_cases hd : fadeTicks Config.fadeTickHz ms = 0#32
    · exact Diode.fadeOk_of_tick_eq_dur hd.symm (fadeTicks_le ms)
    · refine ⟨Nat.zero_le _, fadeTicks_le ms, fun _ => ?_⟩
      simp only [if_neg hd]
      exact (rampAt_zero _ t _).symm
  · exact (s.channelKept_startFade hc t _).channelOk h

theorem State.channelOk.tickAll {s : State} {c : Channel} (h : s.channelOk c) : s.tickAll.channelOk c := by
  obtain ⟨hfade, hshows⟩ := h
  obtain ⟨hsame, hnew⟩ := s.column_tickAll c
  unfold State.channelOk
  rw [State.diode_tickAll]
  refine ⟨hfade.ticked, ?_⟩
  by_cases hcur : (s.diode c).ticked.cur = (s.diode c).cur
  · rw [hcur]
    exact fun j => (hsame hcur j).trans (hshows j)
  · exact hnew hcur

/-! ### What keeps the invariant -/

theorem inv_keptByNotes : KeptByNotes State.Inv := by
  intro s t ht hs
  unfold State.sameButNotes at ht
  rw [ht]
  exact hs

theorem inv_keptByEngine : KeptByEngine State.Inv where
  notes := inv_keptByNotes
  setLevel s c level hs := hs.of_channels (s.setLevel_frame c level).lifecycleKept fun _ h => h.setLevel c level
  startFade s c t ms hs := hs.of_channels (s.startFade_frame c t _).lifecycleKept fun _ h => h.startFade c t ms
  tickAll s hs := hs.of_channels s.tickAll_frame.lifecycleKept fun _ h => h.tickAll

theorem State.channelKept_slotStep (c : Channel) : s.channelKept s.slotStep c := by
  unfold State.slotStep
  split <;> exact s.channelKept_refl c

/-- Level 0 is dark: its pattern is all zeros (R74). -/
theorem lookup_zero : lookup 0#6 = 0#64 := by decide

/-- With the zero record and an all-zero buffer a channel meets the invariant: idle, at level 0, and dark (R81). -/
theorem State.channelOk_of_zero {s : State} (hd : s.diodes = Vector.replicate 24 Diode.zero)
    (hm : s.masks = Vector.replicate 63 0#24) (c : Channel) : s.channelOk c := by
  have hdiode : s.diode c = Diode.zero := by simp [State.diode, hd]
  unfold State.channelOk
  rw [hdiode]
  refine ⟨Diode.fadeOk_of_tick_eq_dur rfl (by decide), fun j => ?_⟩
  simp [State.bufRead, hm, Diode.zero, lookup_zero]

/-- INIT establishes the invariant, whatever the state before it (R81). -/
theorem inv_execInit {s t : State} (h : execInit s = .next t) : t.Inv := by
  rw [State.inv_iff]
  cases h
  split <;> exact ⟨⟨fun _ => rfl, rfl⟩, fun _ => State.channelOk_of_zero rfl rfl⟩

/-- In a block that is not initialised the invariant is about the flags alone. -/
theorem State.inv_of_uninitialised {s : State} (hi : s.inited = false) (ha : s.armed = false)
    (ht : s.tickArmed = false) : s.Inv := by
  rw [State.inv_iff]
  refine ⟨⟨?_, by rw [ht, hi]⟩, ?_⟩ <;> simp [hi, ha]

/-- Settles O51: each write of a step keeps the invariant, INIT and a reset establish it. -/
theorem everyStepKeepsTheInvariant : Obligations.EveryStepKeepsTheInvariant := by
  intro s t hs h
  have hwrites : KeptByWrites State.Inv s.stepStoresLevels (s.takes .slot) (s.takes .init) s.takesReset :=
    { inv_keptByEngine with
      setStored := fun _ _ _ _ hu => hu
      slotStep := fun _ u hu =>
        hu.of_channels u.lifecycleKept_slotStep fun c hc => (u.channelKept_slotStep c).channelOk hc
      init := fun _ _ _ hi _ => inv_execInit hi
      reset := fun _ _ _ => State.inv_of_uninitialised rfl rfl rfl }
  exact hwrites.step h hs

/-- Settles O50: the block is not initialised after reset, and the animator does not play. -/
theorem resetMeetsTheInvariant : Obligations.ResetMeetsTheInvariant :=
  ⟨rfl, rfl, rfl, rfl, rfl, State.inv_of_uninitialised rfl rfl rfl, nofun⟩

end Sys2Proof.Machine
end

section
/-! How an agent comes to move, what its step is, and what falls inside a bitwise column write (20_memory.md R38, R39,
R41): the frames that SLOT presents between the single-bit writes, and the ticks held there. -/

namespace Sys2Proof.Machine

variable (s : State)

/-! ### Words and the decoder -/

/-- Settles O4: the decoder is evaluated on each word. -/
theorem writtenOutWordsDecode : Obligations.WrittenOutWordsDecode := by
  unfold Obligations.WrittenOutWordsDecode
  decide

/-- No packet decodes to INIT: it is a native command only (R52, R56). -/
theorem decodeWire_ne_init (p : Packet) : decodeWire p ≠ .ok .init := by
  unfold decodeWire
  split_ifs <;> exact nofun

/-- INIT comes on the native port. -/
theorem native_of_decode_init {p : PortWord} (h : decode p = .ok .init) : ∃ w, p = .native w := by
  cases p with
  | native w => exact ⟨w, rfl⟩
  | wire p => exact absurd h (decodeWire_ne_init p)
  | fadeTick => cases h
  | slotTick => cases h
  | tableAddress n => cases h

/-! ### Who moves next, and what waits -/

/-- The agent that moves is the first of `turns`, which can move, or the default one. -/
theorem State.nextTurn_cases :
    (∃ t ts, s.turns = t :: ts ∧ s.ready t = true ∧ s.nextTurn = some t) ∨ s.nextTurn = s.defaultTurn := by
  unfold State.nextTurn
  split
  next => exact .inr rfl
  next t ts h =>
    split
    next hr => exact .inl ⟨t, ts, h, hr, rfl⟩
    next => exact .inr rfl

theorem State.nextTurn_of_ready {s : State} {t : Turn} {ts : List Turn} (h : s.turns = t :: ts)
    (hr : s.ready t = true) : s.nextTurn = some t := by
  simp [State.nextTurn, h, hr]

/-- The default order (log entry 8): the arrival comes last, when nothing is left that it could wait for. -/
theorem State.defaultTurn_eq : s.defaultTurn =
    if 0 < s.pendingTicks then some .heldTick
    else if s.packets ≠ [] then some (.packet 0)
    else if s.animWork ≠ [] then some .animator
    else if s.inputs ≠ [] then some .input
    else none := by
  unfold State.defaultTurn
  by_cases hp : 0 < s.pendingTicks
  · simp [State.ready, hp]
  by_cases hj : s.packets = []
  swap
  · simp [State.ready, hp, hj, List.length_pos_iff]
  by_cases ha : s.animWork = []
  swap
  · simp [State.ready, hp, hj, ha]
  cases hi : s.inputs with
  | nil => simp [State.ready, hp, hj, ha, hi]
  | cons x xs =>
    have hm := State.mayTake_of_idle (Nat.eq_zero_of_not_pos hp) hj ha x
    simp [State.ready, hp, hj, ha, hi, hm]

/-- Waiting never blocks the machine: what an arrival waits for is an agent that can move. -/
theorem State.nextTurn_ne_none {s : State} (h : s.inputs ≠ []) : s.nextTurn ≠ none := by
  obtain ⟨t, _, _, _, e⟩ | e := s.nextTurn_cases <;> rw [e]
  · exact nofun
  · rw [State.defaultTurn_eq]
    split_ifs <;> exact nofun

/-- An arrival that moves is one that may be taken. -/
theorem State.mayTake_of_nextTurn {s : State} {x : Input} {xs : List Input} (hin : s.inputs = x :: xs)
    (h : s.nextTurn = some .input) : s.mayTake x = true := by
  have hr := State.ready_of_nextTurn h
  simpa [State.ready, hin] using hr

theorem State.clientBusy_iff {client : Nat} :
    s.clientBusy client = true ↔ ∃ job ∈ s.packets, job.client = client := by
  simp [State.clientBusy]

/-- A native word that may be taken is of a client with no packet 0x81 in progress, and is no INIT before a held tick
(R41 (2), R39). -/
theorem State.mayTake_native {s : State} {client : Nat} {w : NativeWord}
    (h : s.mayTake (.word client (.native w)) = true) :
    s.clientBusy client = false ∧ (s.pendingTicks = 0 ∨ decode (.native w) ≠ .ok .init) := by
  simpa [State.mayTake] using h

/-- A packet that may be taken is of a client with no packet 0x81 in progress (R41 (2)). -/
theorem State.mayTake_wire {s : State} {client : Nat} {p : Packet} (h : s.mayTake (.word client (.wire p)) = true) :
    s.clientBusy client = false := by
  simp only [State.mayTake, Bool.and_eq_true, Bool.not_eq_true'] at h
  exact h.1

/-- Settles O58: an arrival that moves may be taken, which a busy client and a held tick rule out. -/
theorem wordsWaitForTheirClientsPacket : Obligations.WordsWaitForTheirClientsPacket := by
  refine ⟨fun s client p xs hin => ⟨fun hjob hport hturn => ?_, fun hticks hinit hturn => ?_⟩,
    fun s => State.nextTurn_ne_none⟩
  · have hmay := State.mayTake_of_nextTurn hin hturn
    have hidle : s.clientBusy client = false := by
      obtain ⟨w, rfl⟩ | ⟨w, rfl⟩ := hport
      · exact (State.mayTake_native hmay).1
      · exact State.mayTake_wire hmay
    rw [s.clientBusy_iff.mpr hjob] at hidle
    cases hidle
  · obtain ⟨w, rfl⟩ := native_of_decode_init hinit
    obtain ⟨_, hnone | hother⟩ := State.mayTake_native (State.mayTake_of_nextTurn hin hturn)
    · exact hticks.ne' hnone
    · exact hother hinit

/-! ### The step of the agent that moves -/

/-- The step of whoever issued the next arrival takes that arrival (R41). -/
theorem step_of_input {s : State} {x : Input} {xs : List Input} (h : s.nextTurn = some .input)
    (hin : s.inputs = x :: xs) :
    step s = State.accept exec { s with inputs := xs, turns := s.turns.tail } x := by
  simp [step, State.stepWith, State.runTurn, h, hin]

/-- A word on a port runs the instruction that it decodes to. -/
theorem State.accept_word {p : PortWord} {i : Instr} (h : decode p = .ok i) (client : Nat) :
    s.accept exec (.word client p) = exec i { s with issuer := client } := by
  simp [State.accept, h]

/-- The step of the tick handler runs one held tick as TICK (R39). -/
theorem step_of_heldTick {s : State} (h : s.nextTurn = some .heldTick) :
    step s = exec .tick { s with pendingTicks := s.pendingTicks - 1, turns := s.turns.tail } := by
  simp [step, State.stepWith, State.runTurn, h]

/-- Settles O5: the step takes the arrival, and the arrival runs what it decodes to. -/
theorem stepRunsTheDecodedInstruction : Obligations.StepRunsTheDecodedInstruction := by
  intro s client p i xs hturn hin hdecode
  rw [step_of_input hturn hin, State.accept_word _ hdecode]

/-- Settles O6: with no turn listed the default order is the one stated. -/
theorem turnsSayWhoMovesNext : Obligations.TurnsSayWhoMovesNext := by
  refine ⟨fun s t ts => State.nextTurn_of_ready, fun s hturns => ?_, fun s => step_of_heldTick⟩
  obtain ⟨t, ts, h, _⟩ | h := s.nextTurn_cases
  · rw [hturns] at h
    cases h
  · rw [h, State.defaultTurn_eq]

/-! ### The bitwise column write, gap by gap -/

theorem State.nextGap_of_nil {s : State} (h : s.between = []) : s.nextGap = s := by
  simp [State.nextGap, h]

theorem State.nextGap_of_cons {s : State} {g : List Strobe} {gs : List (List Strobe)} (h : s.between = g :: gs) :
    s.nextGap = g.foldl State.strobe { s with between := gs } := by
  simp [State.nextGap, h]

/-- With no pulse listed, the single-bit writes reach the buffer only. -/
theorem State.applyBits_of_nil (c : Channel) (w : Pattern) (js : List Slot) {s : State} (h : s.between = []) :
    js.foldl (State.applyBit c w) s = { s with masks := (js.foldl (State.applyBit c w) s).masks } := by
  induction js generalizing s with
  | nil => rfl
  | cons j js ih =>
    have hbit : State.applyBit c w s j = s.bufWriteBit j c (w.getLsbD j.val) := by
      rw [State.applyBit, State.nextGap_of_nil h]
    rw [List.foldl_cons, hbit, ih (s := s.bufWriteBit j c (w.getLsbD j.val)) h]
    rfl

/-- `APPLY_ATOMIC` = false is the bitwise write in every state: where nothing falls inside it, it is the whole-column
write too (R38). -/
theorem State.applyWith_false (c : Channel) (v : Level) : s.applyWith false c v = s.applyBitwise c v := by
  unfold State.applyWith
  split
  next h =>
    have hbits := State.applyBits_of_nil c (lookup v) (List.finRange 63) h
    have hgap := State.nextGap_of_nil (s := (List.finRange 63).foldl (State.applyBit c (lookup v)) s) (by rw [hbits, h])
    have hmasks := s.applyBitwise_masks c v
    rw [State.applyBitwise, hgap, State.setCur_masks] at hmasks
    rw [State.applyBitwise, hgap, hbits, hmasks]
    rfl
  next => rfl

/-! ### What a pulse inside the write does -/

theorem State.slotStep_pendingTicks : s.slotStep.pendingTicks = s.pendingTicks := by
  obtain ⟨_, h⟩ | ⟨_, h⟩ := s.slotStep_cases <;> rw [h]

theorem State.slotStep_between : s.slotStep.between = s.between := by
  obtain ⟨_, h⟩ | ⟨_, h⟩ := s.slotStep_cases <;> rw [h]

theorem State.strobe_between (x : Strobe) : (s.strobe x).between = s.between := by
  cases x with
  | slot => exact s.slotStep_between
  | fadeTick => rfl

/-- A pulse is a held tick or none (R39, R115). -/
theorem State.strobe_pendingTicks (x : Strobe) :
    (s.strobe x).pendingTicks = s.pendingTicks + [x].count .fadeTick := by
  cases x with
  | slot => exact s.slotStep_pendingTicks
  | fadeTick => rfl

theorem State.strobes_between (g : List Strobe) (s : State) : (g.foldl State.strobe s).between = s.between := by
  induction g generalizing s with
  | nil => rfl
  | cons x g ih => rw [List.foldl_cons, ih, State.strobe_between]

theorem State.strobes_pendingTicks (g : List Strobe) (s : State) :
    (g.foldl State.strobe s).pendingTicks = s.pendingTicks + g.count .fadeTick := by
  induction g generalizing s with
  | nil => rfl
  | cons x g ih =>
    rw [List.foldl_cons, ih, State.strobe_pendingTicks, Nat.add_assoc, ← List.count_append, List.singleton_append]

/-- A gap uses up its entry of `between`. -/
theorem State.nextGap_between : s.nextGap.between = s.between.drop 1 := by
  cases h : s.between with
  | nil => rw [State.nextGap_of_nil h, h]; rfl
  | cons g gs => rw [State.nextGap_of_cons h, State.strobes_between]; rfl

/-- A gap holds every fade tick in it (R39). -/
theorem State.nextGap_pendingTicks :
    s.nextGap.pendingTicks = s.pendingTicks + (s.between.take 1).flatten.count .fadeTick := by
  cases h : s.between with
  | nil => rw [State.nextGap_of_nil h]; rfl
  | cons g gs => rw [State.nextGap_of_cons h, State.strobes_pendingTicks]; simp

theorem State.applyBit_between (c : Channel) (w : Pattern) (j : Slot) :
    (State.applyBit c w s j).between = s.between.drop 1 := s.nextGap_between

theorem State.applyBit_pendingTicks (c : Channel) (w : Pattern) (j : Slot) :
    (State.applyBit c w s j).pendingTicks = s.pendingTicks + (s.between.take 1).flatten.count .fadeTick :=
  s.nextGap_pendingTicks

/-- The writes of `js`, and the gap after them, use up one gap each and one more. -/
theorem State.applyBits_nextGap_between (c : Channel) (w : Pattern) (js : List Slot) (s : State) :
    (js.foldl (State.applyBit c w) s).nextGap.between = s.between.drop (js.length + 1) := by
  induction js generalizing s with
  | nil => exact s.nextGap_between
  | cons j js ih => rw [List.foldl_cons, ih, State.applyBit_between, List.drop_drop, List.length_cons, Nat.add_comm 1]

/-- Every fade tick in these gaps is held. -/
theorem State.applyBits_nextGap_pendingTicks (c : Channel) (w : Pattern) (js : List Slot) (s : State) :
    (js.foldl (State.applyBit c w) s).nextGap.pendingTicks =
      s.pendingTicks + (s.between.take (js.length + 1)).flatten.count .fadeTick := by
  induction js generalizing s with
  | nil => exact s.nextGap_pendingTicks
  | cons j js ih =>
    rw [List.foldl_cons, ih, State.applyBit_between, State.applyBit_pendingTicks, Nat.add_assoc, ← List.count_append,
      ← List.flatten_append, ← List.take_add, List.length_cons, Nat.add_comm 1]

/-- Settles O32: the 63 writes and `cur` come each after a gap, whose fade ticks are held one by one. -/
theorem ticksInsideAColumnWriteAreHeld : Obligations.TicksInsideAColumnWriteAreHeld := by
  intro s c v
  rw [State.applyWith_false]
  unfold State.applyBitwise
  rw [State.setCur_pendingTicks, State.setCur_between]
  have hlen : (List.finRange 63).length + 1 = 64 := by simp
  constructor
  · rw [State.applyBits_nextGap_pendingTicks, hlen]
    rfl
  · rw [State.applyBits_nextGap_between, hlen]

/-! ### What SLOT presents inside the write -/

/-- From `s` to `t` SLOT presents exactly the frames `fs`, their slots going on one by one (R110). -/
structure State.Presents (s t : State) (fs : List Frame) : Prop where
  frames : t.frames = s.frames ++ fs
  slot : t.slot.val = (s.slot.val + fs.length) % 63
  order : ∀ (n : Nat) (f : Frame), fs[n]? = some f → f.slot.val = (s.slot.val + n) % 63

/-- `fs` has a frame for each pulse on `slot_tick` in the gap `g`, while armed, and each is a whole mask of the buffer
of `s` (R110, R114). -/
structure State.GapShows (s : State) (g : List Strobe) (fs : List Frame) : Prop where
  length : fs.length = if s.armed then g.count .slot else 0
  mask : ∀ f ∈ fs, f.mask = s.bufRead f.slot

/-- Nothing is presented where neither the frames nor `slot` are written. -/
theorem State.Presents.nil {s t : State} (hf : t.frames = s.frames) (hs : t.slot = s.slot) : s.Presents t [] where
  frames := by rw [hf, List.append_nil]
  slot := by rw [hs, List.length_nil, Nat.add_zero, Nat.mod_eq_of_lt s.slot.isLt]
  order _ _ h := by simp at h

theorem State.Presents.append {s t u : State} {fs gs : List Frame} (h : s.Presents t fs) (k : t.Presents u gs) :
    s.Presents u (fs ++ gs) where
  frames := by rw [k.frames, h.frames, List.append_assoc]
  slot := by rw [k.slot, h.slot, List.length_append, Nat.mod_add_mod, Nat.add_assoc]
  order n f hn := by
    by_cases hlt : n < fs.length
    · rw [List.getElem?_append_left hlt] at hn
      exact h.order n f hn
    · rw [List.getElem?_append_right (Nat.le_of_not_lt hlt)] at hn
      rw [k.order _ f hn, h.slot, Nat.mod_add_mod]
      congr 1
      omega

/-- While armed a SLOT presents the mask of its slot. -/
theorem State.slotStep_presents {s : State} (h : s.armed = true) :
    s.Presents s.slotStep [⟨s.slot, s.bufRead s.slot⟩] := by
  obtain ⟨ha, _⟩ | ⟨_, e⟩ := s.slotStep_cases
  · rw [h] at ha
    cases ha
  · rw [e]
    refine ⟨rfl, ?_, fun n f hn => ?_⟩
    · simp [Fin.val_add]
    · cases n with
      | zero => cases hn; exact (Nat.mod_eq_of_lt s.slot.isLt).symm
      | succ n => cases hn

/-- One pulse presents a frame if it is a SLOT and the output is armed, and none otherwise. -/
theorem State.strobe_presents (x : Strobe) : ∃ fs, s.Presents (s.strobe x) fs ∧ s.GapShows [x] fs := by
  cases x with
  | slot =>
    obtain ⟨ha, e⟩ | ⟨ha, _⟩ := s.slotStep_cases
    · exact ⟨[], .nil (congrArg State.frames e) (congrArg State.slot e), by simp [ha], nofun⟩
    · exact ⟨_, State.slotStep_presents ha, by simp [ha], by simp⟩
  | fadeTick => exact ⟨[], .nil rfl rfl, by simp, nofun⟩

theorem State.sameButPulses.armed_eq {s t : State} (h : s.sameButPulses t) : t.armed = s.armed := by
  unfold State.sameButPulses at h
  rw [h]

theorem State.sameButPulses.bufRead_eq {s t : State} (h : s.sameButPulses t) (j : Slot) :
    t.bufRead j = s.bufRead j := by
  simp only [State.bufRead, h.masks_eq]

/-- Two stretches of pulses over the same buffer make one. -/
theorem State.GapShows.append {s t : State} {g g' : List Strobe} {fs fs' : List Frame} (hst : s.sameButPulses t)
    (h : s.GapShows g fs) (k : t.GapShows g' fs') : s.GapShows (g ++ g') (fs ++ fs') where
  length := by
    rw [List.length_append, List.count_append, h.length, k.length, hst.armed_eq]
    split <;> rfl
  mask f hf := by
    obtain hf | hf := List.mem_append.mp hf
    · exact h.mask f hf
    · rw [k.mask f hf, hst.bufRead_eq]

theorem State.strobes_present (g : List Strobe) (s : State) :
    ∃ fs, s.Presents (g.foldl State.strobe s) fs ∧ s.GapShows g fs := by
  induction g generalizing s with
  | nil => exact ⟨[], .nil rfl rfl, by simp, nofun⟩
  | cons x g ih =>
    obtain ⟨fs, hp, hg⟩ := s.strobe_presents x
    obtain ⟨gs, kp, kg⟩ := ih (s.strobe x)
    exact ⟨fs ++ gs, hp.append kp, hg.append (s.strobe_sameButPulses x) kg⟩

/-- What SLOT presents in the next gap. -/
theorem State.nextGap_presents : ∃ fs, s.Presents s.nextGap fs ∧ s.GapShows (s.between.getD 0 []) fs := by
  cases h : s.between with
  | nil =>
    rw [State.nextGap_of_nil h]
    exact State.strobes_present [] s
  | cons g gs =>
    rw [State.nextGap_of_cons h]
    obtain ⟨fs, hp, hg⟩ := State.strobes_present g { s with between := gs }
    exact ⟨fs, ⟨hp.frames, hp.slot, hp.order⟩, ⟨hg.length, hg.mask⟩⟩

/-- The writes of `js`, with a gap before each and one after them: gap `k` shows the buffer after `k` writes. -/
theorem State.applyBits_nextGap_presents (c : Channel) (w : Pattern) (js : List Slot) (s : State) :
    ∃ gaps : List (List Frame),
      gaps.length = js.length + 1 ∧
      s.Presents (js.foldl (State.applyBit c w) s).nextGap gaps.flatten ∧
      ∀ (k : Nat) (fs : List Frame), gaps[k]? = some fs →
        ((js.take k).foldl (State.applyBit c w) s).GapShows (s.between.getD k []) fs := by
  induction js generalizing s with
  | nil =>
    obtain ⟨fs, hp, hg⟩ := s.nextGap_presents
    refine ⟨[fs], rfl, by simpa using hp, fun k fs' hk => ?_⟩
    cases k with
    | zero => cases hk; exact hg
    | succ k => cases hk
  | cons j js ih =>
    obtain ⟨fs, hp, hg⟩ := s.nextGap_presents
    obtain ⟨gaps, hlen, hpresents, hshows⟩ := ih (State.applyBit c w s j)
    have hbit : s.Presents (State.applyBit c w s j) fs := ⟨hp.frames, hp.slot, hp.order⟩
    refine ⟨fs :: gaps, by rw [List.length_cons, hlen, List.length_cons], hbit.append hpresents, fun k fs' hk => ?_⟩
    cases k with
    | zero => cases hk; exact hg
    | succ k =>
      have h := hshows k fs' hk
      rw [State.applyBit_between, List.getD_eq_getElem?_getD, List.getElem?_drop, Nat.add_comm] at h
      exact h

theorem mem_take_finRange {n k : Nat} {j : Fin n} : j ∈ (List.finRange n).take k ↔ j.val < k := by
  simp [List.mem_take_iff_getElem, Fin.ext_iff]

theorem State.applyBits_armed (c : Channel) (w : Pattern) (js : List Slot) :
    (js.foldl (State.applyBit c w) s).armed = s.armed := by
  have h := State.applyBits_sameButMasks c w js s
  unfold State.sameButMasks at h
  rw [h]

/-- After the first `k` single-bit writes the column has the new bits at the slots below `k` (R38, R80). -/
theorem State.bufRead_applyBits_take (c : Channel) (w : Pattern) (k : Nat) (j : Slot) :
    (((List.finRange 63).take k).foldl (State.applyBit c w) s).bufRead j =
      if j.val < k then writeMaskBit (s.bufRead j) c (w.getLsbD j.val) else s.bufRead j := by
  simp only [State.bufRead_applyBits, mem_take_finRange]

/-- Settles O31: gap `k` shows the buffer after the first `k` single-bit writes. -/
theorem framesInsideAColumnWriteAreOldOrNew : Obligations.FramesInsideAColumnWriteAreOldOrNew := by
  intro s c v
  obtain ⟨gaps, hlen, hpresents, hshows⟩ := State.applyBits_nextGap_presents c (lookup v) (List.finRange 63) s
  refine ⟨gaps, by simpa using hlen, ?_, hpresents.order, fun k fs hk => ?_⟩
  · rw [State.applyWith_false, State.applyBitwise, State.setCur_frames]
    exact hpresents.frames
  · obtain ⟨hcount, hmask⟩ := hshows k fs hk
    rw [State.applyBits_armed] at hcount
    refine ⟨hcount, fun f hf => ?_⟩
    rw [hmask f hf, State.bufRead_applyBits_take]
    refine ⟨fun c' hc => ?_, fun hlt => ?_, fun hle => ?_⟩
    · split
      · rw [writeMaskBit_getLsbD, if_neg hc]
      · rfl
    · rw [if_pos hlt, writeMaskBit_getLsbD, if_pos rfl]
    · rw [if_neg (Nat.not_lt.mpr hle)]

end Sys2Proof.Machine
end

section
/-! The encodings (30_encoding.md): a native word is its four fields and a packet its four bytes, the decoder and the mask of
used bits act field by field, and so the encoder and the decoder undo each other. The text forms of R63 and R64 follow. -/

namespace Sys2Proof

/-! ### A native word is its four fields (R51) -/

section NativeFields

variable (op index : Byte) (level : LevelOperand) (ms : BitVec 16)

@[simp] theorem ncwOp_nativeWord : ncwOp (nativeWord op index level ms) = op :=
  Laws.EncodesWellFormed.nativeWord_op op index level ms

@[simp] theorem ncwIndex_nativeWord : ncwIndex (nativeWord op index level ms) = index := by
  rw [ncwIndex, nativeWord, BitVec.extractLsb'_append_eq_of_le (by decide),
    BitVec.extractLsb'_append_eq_of_le (by decide)]
  exact BitVec.extractLsb'_append_eq_right

@[simp] theorem ncwLevel_nativeWord : ncwLevel (nativeWord op index level ms) = level := by
  rw [ncwLevel, nativeWord, BitVec.extractLsb'_append_eq_of_le (by decide)]
  exact BitVec.extractLsb'_append_eq_right

@[simp] theorem ncwDurationMs_nativeWord : ncwDurationMs (nativeWord op index level ms) = ms :=
  BitVec.extractLsb'_append_eq_right

/-- The fields lie side by side and fill the word. -/
theorem nativeWord_fields (w : NativeWord) :
    nativeWord (ncwOp w) (ncwIndex w) (ncwLevel w) (ncwDurationMs w) = w := by
  unfold nativeWord ncwOp ncwIndex ncwLevel ncwDurationMs
  rw [BitVec.extractLsb'_append_extractLsb'_eq_extractLsb' (by decide),
    BitVec.extractLsb'_append_extractLsb'_eq_extractLsb' (by decide),
    BitVec.extractLsb'_append_extractLsb'_eq_extractLsb' (by decide)]
  exact BitVec.extractLsb'_eq_self

/-- A mask acts on each field by itself. -/
theorem nativeWord_and (op' index' : Byte) (level' : LevelOperand) (ms' : BitVec 16) :
    nativeWord op index level ms &&& nativeWord op' index' level' ms' =
      nativeWord (op &&& op') (index &&& index') (level &&& level') (ms &&& ms') := by
  simp only [nativeWord, ← BitVec.and_append]

/-- The decoder on a word given by its fields (R52). -/
theorem decodeNative_nativeWord :
    decodeNative (nativeWord op index level ms) =
      if op = 0x00#8 then .ok .init
      else if op = 0x01#8 then .ok (.get index)
      else if op = 0x02#8 then .ok (.set index level)
      else if op = 0x03#8 then .ok (.fade index level ms)
      else .reject (.badNativeOpcode op) := by
  simp only [decodeNative, ncwOp_nativeWord, ncwIndex_nativeWord, ncwLevel_nativeWord, ncwDurationMs_nativeWord]

end NativeFields

/-! ### A packet is its four bytes (R55) -/

section PacketBytes

variable (b0 b1 b2 b3 : Byte)

@[simp] theorem pktOpcode_packetOfBytes : pktOpcode (packetOfBytes b0 b1 b2 b3) = b0 :=
  Laws.EncodesWellFormed.packetOfBytes_opcode b0 b1 b2 b3

@[simp] theorem pktArg1_packetOfBytes : pktArg1 (packetOfBytes b0 b1 b2 b3) = b1 := by
  rw [pktArg1, packetOfBytes, BitVec.extractLsb'_append_eq_of_le (by decide),
    BitVec.extractLsb'_append_eq_of_le (by decide)]
  exact BitVec.extractLsb'_append_eq_right

@[simp] theorem pktArg2_packetOfBytes : pktArg2 (packetOfBytes b0 b1 b2 b3) = b2 := by
  rw [pktArg2, packetOfBytes, BitVec.extractLsb'_append_eq_of_le (by decide)]
  exact BitVec.extractLsb'_append_eq_right

@[simp] theorem pktArg3_packetOfBytes : pktArg3 (packetOfBytes b0 b1 b2 b3) = b3 :=
  BitVec.extractLsb'_append_eq_right

/-- The bytes lie side by side and fill the packet. -/
theorem packetOfBytes_args (p : Packet) :
    packetOfBytes (pktOpcode p) (pktArg1 p) (pktArg2 p) (pktArg3 p) = p := by
  unfold packetOfBytes pktOpcode pktArg1 pktArg2 pktArg3
  rw [BitVec.extractLsb'_append_extractLsb'_eq_extractLsb' (by decide),
    BitVec.extractLsb'_append_extractLsb'_eq_extractLsb' (by decide),
    BitVec.extractLsb'_append_extractLsb'_eq_extractLsb' (by decide)]
  exact BitVec.extractLsb'_eq_self

/-- A mask acts on each byte by itself. -/
theorem packetOfBytes_and (c0 c1 c2 c3 : Byte) :
    packetOfBytes b0 b1 b2 b3 &&& packetOfBytes c0 c1 c2 c3 =
      packetOfBytes (b0 &&& c0) (b1 &&& c1) (b2 &&& c2) (b3 &&& c3) := by
  simp only [packetOfBytes, ← BitVec.and_append]

/-- The decoder on a packet given by its bytes (R56). -/
theorem decodeWire_packetOfBytes :
    decodeWire (packetOfBytes b0 b1 b2 b3) =
      if b0 = 0x80#8 then .ok (.wset b1 b2)
      else if b0 = 0x81#8 then .ok (.wsetall b1)
      else if b0 = 0x82#8 then .ok (.wget b1)
      else if b0 = 0x83#8 then .ok (.wplay b1 b2 b3)
      else if b0 = 0x84#8 then .ok .wstop
      else if b0 = 0xF0#8 then .ok .wver
      else if b0 = 0xF1#8 then .ok .wboot
      else .reject (.badWireOpcode b0) := by
  simp only [decodeWire, pktOpcode_packetOfBytes, pktArg1_packetOfBytes, pktArg2_packetOfBytes, pktArg3_packetOfBytes]

end PacketBytes

/-! ### Decoding what the encoder writes -/

/-- Settles O1, row by row: the encoder puts each operand into the field that the decoder reads for that opcode. -/
theorem decodeOfEncodeIsTheInstruction : Obligations.DecodeOfEncodeIsTheInstruction := by
  intro i
  cases i with
  | init => exact decodeNative_nativeWord 0x00#8 0#8 0#32 0#16
  | get index => exact decodeNative_nativeWord 0x01#8 index 0#32 0#16
  | set index level => exact decodeNative_nativeWord 0x02#8 index level 0#16
  | fade index level ms => exact decodeNative_nativeWord 0x03#8 index level ms
  | wset channel velocity => exact decodeWire_packetOfBytes 0x80#8 channel velocity 0#8
  | wsetall velocity => exact decodeWire_packetOfBytes 0x81#8 velocity 0#8 0#8
  | wget channel => exact decodeWire_packetOfBytes 0x82#8 channel 0#8 0#8
  | wplay animationId ds followId => exact decodeWire_packetOfBytes 0x83#8 animationId ds followId
  | wstop => exact decodeWire_packetOfBytes 0x84#8 0#8 0#8 0#8
  | wver => exact decodeWire_packetOfBytes 0xF0#8 0#8 0#8 0#8
  | wboot => exact decodeWire_packetOfBytes 0xF1#8 0#8 0#8 0#8
  | tick => rfl
  | slot => rfl
  | lookup n => rfl

/-! ### The used bits are whole fields (R52, R56) -/

@[simp] theorem nativeBitsUsed_init :
    nativeBitsUsed .init = nativeWord (.allOnes 8) 0#8 0#32 0#16 := rfl

@[simp] theorem nativeBitsUsed_get (index : Byte) :
    nativeBitsUsed (.get index) = nativeWord (.allOnes 8) (.allOnes 8) 0#32 0#16 := rfl

@[simp] theorem nativeBitsUsed_set (index : Byte) (level : LevelOperand) :
    nativeBitsUsed (.set index level) = nativeWord (.allOnes 8) (.allOnes 8) (.allOnes 32) 0#16 := rfl

@[simp] theorem nativeBitsUsed_fade (index : Byte) (level : LevelOperand) (ms : BitVec 16) :
    nativeBitsUsed (.fade index level ms) = nativeWord (.allOnes 8) (.allOnes 8) (.allOnes 32) (.allOnes 16) := rfl

@[simp] theorem wireBitsUsed_wset (channel velocity : Byte) :
    wireBitsUsed (.wset channel velocity) = packetOfBytes (.allOnes 8) (.allOnes 8) (.allOnes 8) 0#8 := rfl

@[simp] theorem wireBitsUsed_wsetall (velocity : Byte) :
    wireBitsUsed (.wsetall velocity) = packetOfBytes (.allOnes 8) (.allOnes 8) 0#8 0#8 := rfl

@[simp] theorem wireBitsUsed_wget (channel : Byte) :
    wireBitsUsed (.wget channel) = packetOfBytes (.allOnes 8) (.allOnes 8) 0#8 0#8 := rfl

@[simp] theorem wireBitsUsed_wplay (animationId ds followId : Byte) :
    wireBitsUsed (.wplay animationId ds followId) =
      packetOfBytes (.allOnes 8) (.allOnes 8) (.allOnes 8) (.allOnes 8) := rfl

@[simp] theorem wireBitsUsed_wstop : wireBitsUsed .wstop = packetOfBytes (.allOnes 8) 0#8 0#8 0#8 := rfl

@[simp] theorem wireBitsUsed_wver : wireBitsUsed .wver = packetOfBytes (.allOnes 8) 0#8 0#8 0#8 := rfl

@[simp] theorem wireBitsUsed_wboot : wireBitsUsed .wboot = packetOfBytes (.allOnes 8) 0#8 0#8 0#8 := rfl

/-! ### Encoding what the decoder reads -/

/-- With the word written as its fields, each opcode's mask keeps the fields that the encoder puts back and clears the
others. -/
theorem encode_of_decodeNative {w : NativeWord} {i : Instr} (h : decodeNative w = .ok i) :
    encode i = .native (w &&& nativeBitsUsed i) := by
  rw [← nativeWord_fields w] at h ⊢
  rw [decodeNative_nativeWord] at h
  split_ifs at h with hop hop hop hop <;> cases h
  all_goals
    simp only [encode, hop, nativeBitsUsed_init, nativeBitsUsed_get, nativeBitsUsed_set, nativeBitsUsed_fade,
      nativeWord_and, BitVec.and_allOnes, BitVec.and_zero]

/-- The same of a packet written as its bytes. -/
theorem encode_of_decodeWire {p : Packet} {i : Instr} (h : decodeWire p = .ok i) :
    encode i = .wire (p &&& wireBitsUsed i) := by
  rw [← packetOfBytes_args p] at h ⊢
  rw [decodeWire_packetOfBytes] at h
  split_ifs at h with hop hop hop hop hop hop hop <;> cases h
  all_goals
    simp only [encode, hop, wireBitsUsed_wset, wireBitsUsed_wsetall, wireBitsUsed_wget, wireBitsUsed_wplay,
      wireBitsUsed_wstop, wireBitsUsed_wver, wireBitsUsed_wboot, packetOfBytes_and, BitVec.and_allOnes, BitVec.and_zero]

/-- Settles O2, port by port. -/
theorem encodeOfDecodedKeepsUsedBits : Obligations.EncodeOfDecodedKeepsUsedBits :=
  ⟨fun _ _ => encode_of_decodeNative, fun _ _ => encode_of_decodeWire⟩

/-! ### The reserved opcodes (R52, R58) -/

/-- The native opcodes below 4, one by one. -/
theorem op_lt_four_iff (op : Byte) :
    op.toNat < 4 ↔ op = 0x00#8 ∨ op = 0x01#8 ∨ op = 0x02#8 ∨ op = 0x03#8 := by
  bv_omega

theorem decodeNative_of_reserved {w : NativeWord} (h : 4 ≤ (ncwOp w).toNat) :
    decodeNative w = .reject (.badNativeOpcode (ncwOp w)) := by
  have hop := (op_lt_four_iff (ncwOp w)).not.mp (Nat.not_lt.mpr h)
  simp only [not_or] at hop
  obtain ⟨h0, h1, h2, h3⟩ := hop
  simp only [decodeNative, h0, h1, h2, h3, if_false]

theorem decodeNative_of_assigned {w : NativeWord} (h : (ncwOp w).toNat < 4) : ∃ i, decodeNative w = .ok i := by
  obtain hop | hop | hop | hop := (op_lt_four_iff (ncwOp w)).mp h <;>
    simp [decodeNative, hop]

theorem decodeWire_of_reserved {p : Packet}
    (h : pktOpcode p ∉ [0x80#8, 0x81#8, 0x82#8, 0x83#8, 0x84#8, 0xF0#8, 0xF1#8]) :
    decodeWire p = .reject (.badWireOpcode (pktOpcode p)) := by
  simp only [List.mem_cons, List.not_mem_nil, or_false, not_or] at h
  obtain ⟨h80, h81, h82, h83, h84, hF0, hF1⟩ := h
  simp only [decodeWire, h80, h81, h82, h83, h84, hF0, hF1, if_false]

theorem decodeWire_of_assigned {p : Packet}
    (h : pktOpcode p ∈ [0x80#8, 0x81#8, 0x82#8, 0x83#8, 0x84#8, 0xF0#8, 0xF1#8]) : ∃ i, decodeWire p = .ok i := by
  simp only [List.mem_cons, List.not_mem_nil, or_false] at h
  obtain hop | hop | hop | hop | hop | hop | hop := h <;>
    simp [decodeWire, hop]

/-- Settles O3: the decoder answers an instruction for each opcode of its list, and rejects when it has passed them all. -/
theorem reservedOpcodesAreRejected : Obligations.ReservedOpcodesAreRejected :=
  ⟨fun _ => ⟨decodeNative_of_reserved, decodeNative_of_assigned⟩,
    fun _ => ⟨decodeWire_of_reserved, decodeWire_of_assigned⟩⟩

/-! ### The text forms (R63, R64) -/

theorem TextLine.assemble_get {c : Nat} (hc : c < 256) :
    TextLine.assemble (.get c) = some [encode (.get (BitVec.ofNat 8 c))] :=
  if_pos (by simp [TextLine.wellFormed, hc])

theorem TextLine.assemble_set {c : Nat} {v : Int} (hc : c < 256) (hlo : -2147483648 ≤ v) (hhi : v ≤ 2147483647) :
    TextLine.assemble (.set c v) = some [encode (.set (BitVec.ofNat 8 c) (BitVec.ofInt 32 v))] :=
  if_pos (by simp [TextLine.wellFormed, hc, hlo, hhi])

theorem TextLine.assemble_fade {c ms : Nat} {v : Int} (hc : c < 256) (hlo : -2147483648 ≤ v) (hhi : v ≤ 2147483647)
    (hms : ms < 65536) :
    TextLine.assemble (.fade c v ms) =
      some [encode (.fade (BitVec.ofNat 8 c) (BitVec.ofInt 32 v) (BitVec.ofNat 16 ms))] :=
  if_pos (by simp [TextLine.wellFormed, hc, hlo, hhi, hms])

/-- Settles O57: an operand within its field passes the check and goes into the encoder's word; the lines of characters
are evaluated. -/
theorem textLinesAssemble : Obligations.TextLinesAssemble := by
  refine ⟨rfl, fun c => TextLine.assemble_get, fun c v => TextLine.assemble_set, fun c v ms => TextLine.assemble_fade,
    rfl, rfl, fun _ _ _ _ => rfl, fun _ => rfl, fun _ => rfl, rfl, ?_⟩
  decide

end Sys2Proof
end

section
/-! The pattern table (40_lut.md): the words are those of the spreading formula at the counts of the gamma formula, by one check
of each word; the other properties are those of the two formulas. -/

namespace Sys2Proof.Machine

/-! ### The gamma formula (R71) -/

/-- `b(n) = (isqrt(n^3) + 4) div 8`, the count of set bits at level `n` (R71). -/
def bitCount (n : Nat) : Nat := (Nat.sqrt (n ^ 3) + 4) / 8

theorem sq_le_of_bitCount (n : Nat) : (8 * bitCount n - 4) ^ 2 ≤ n ^ 3 :=
  calc (8 * bitCount n - 4) ^ 2
    _ ≤ Nat.sqrt (n ^ 3) ^ 2 := Nat.pow_le_pow_left (by unfold bitCount; omega) 2
    _ ≤ n ^ 3 := Nat.sqrt_le' (n ^ 3)

theorem lt_sq_of_bitCount (n : Nat) : n ^ 3 < (8 * bitCount n + 4) ^ 2 :=
  calc n ^ 3
    _ < (Nat.sqrt (n ^ 3) + 1) ^ 2 := Nat.lt_succ_sqrt' (n ^ 3)
    _ ≤ (8 * bitCount n + 4) ^ 2 := Nat.pow_le_pow_left (by unfold bitCount; omega) 2

theorem bitCount_mono : Monotone bitCount := fun m n h => by
  have hsqrt : Nat.sqrt (m ^ 3) ≤ Nat.sqrt (n ^ 3) := Nat.sqrt_le_sqrt (Nat.pow_le_pow_left h 3)
  unfold bitCount
  omega

theorem bitCount_two : bitCount 2 = 0 := by norm_num [bitCount]

theorem bitCount_le (n : Level) : bitCount n.toNat ≤ 63 :=
  calc bitCount n.toNat
    _ ≤ bitCount 63 := bitCount_mono (Nat.le_of_lt_succ n.isLt)
    _ = 63 := by norm_num [bitCount]

/-- Below level 63 the count of a level is that of the next one at nine levels only (R74 (g), (h)). -/
theorem bitCount_eq_succ_iff :
    ∀ n < 63, bitCount n = bitCount (n + 1) ↔ n ∈ [0, 1, 3, 4, 6, 8, 11, 14, 18] := by
  decide +kernel

theorem bitCount_lt_succ {n : Nat} (hlo : 19 ≤ n) (hhi : n < 63) : bitCount n < bitCount (n + 1) := by
  refine lt_of_le_of_ne (bitCount_mono n.le_succ) fun h => ?_
  have hmem := (bitCount_eq_succ_iff n hhi).mp h
  simp only [List.mem_cons, List.not_mem_nil, or_false] at hmem
  omega

/-- From level 20 up the count is above that of every lower level (R74 (h)). -/
theorem bitCount_lt {m n : Nat} (hmn : m < n) (hlo : 20 ≤ n) (hhi : n ≤ 63) : bitCount m < bitCount n :=
  calc bitCount m
    _ ≤ bitCount (n - 1) := bitCount_mono (by omega)
    _ < bitCount (n - 1 + 1) := bitCount_lt_succ (by omega) (by omega)
    _ = bitCount n := by rw [Nat.sub_add_cancel (by omega)]

/-! ### The spreading formula (R75) -/

/-- The word with bits `(64 * k) div b` set, for `k` from 0 to `b - 1` (R75). -/
def spread (b : Nat) : Pattern := (List.range b).foldl (fun w k => w ||| (1#64 <<< (64 * k / b))) 0#64

/-- Setting bits one after the other sets those bits and keeps the others. -/
theorem getLsbD_foldl_setBit (position : Nat → Nat) (ks : List Nat) (w : Pattern) {i : Nat} (hi : i < 64) :
    (ks.foldl (fun w k => w ||| (1#64 <<< position k)) w).getLsbD i = true ↔
      w.getLsbD i = true ∨ ∃ k ∈ ks, position k = i := by
  induction ks generalizing w with
  | nil => simp
  | cons k ks ih =>
    have hbit : (w ||| (1#64 <<< position k)).getLsbD i = true ↔ w.getLsbD i = true ∨ position k = i := by
      rw [← BitVec.twoPow_eq, BitVec.getLsbD_or, BitVec.getLsbD_twoPow]
      have hbound : position k < 64 ∧ position k = i ↔ position k = i := and_iff_right_of_imp fun h => h ▸ hi
      simpa using or_congr_right hbound
    rw [List.foldl_cons, ih, hbit, or_assoc, List.exists_mem_cons_iff]

theorem getLsbD_spread (b : Nat) {i : Nat} (hi : i < 64) :
    (spread b).getLsbD i = true ↔ ∃ k < b, 64 * k / b = i := by
  rw [spread, getLsbD_foldl_setBit (fun k => 64 * k / b) _ _ hi]
  simp

/-- Up to 64 positions are distinct, each being at least one above the one before it (R74 (b)). -/
theorem strictMono_spreadPosition {b : Nat} (h0 : 0 < b) (h64 : b ≤ 64) : StrictMono fun k => 64 * k / b :=
  strictMono_nat_of_lt_succ fun k =>
    calc 64 * k / b
      _ < (64 * k + b) / b := by rw [Nat.add_div_right _ h0]; exact Nat.lt_succ_self _
      _ ≤ 64 * (k + 1) / b := Nat.div_le_div_right (by omega)

theorem spreadPosition_lt {b k : Nat} (hk : k < b) : 64 * k / b < 64 :=
  Nat.div_lt_of_lt_mul (by omega)

theorem popcount_eq_card (w : Pattern) : popcount w = {i ∈ Finset.range 64 | w.getLsbD i = true}.card := by
  have hrange : popcount w = (List.range 64).countP w.getLsbD := by
    rw [← List.map_coe_finRange_eq_range, List.countP_map]
    rfl
  rw [hrange, List.countP_eq_length_filter, ← List.toFinset_card_of_nodup (List.nodup_range.filter _),
    List.toFinset_filter, List.toFinset_range]

/-- The word has as many bits as positions (R74 (b)). -/
theorem popcount_spread {b : Nat} (h64 : b ≤ 64) : popcount (spread b) = b := by
  have hbits : {i ∈ Finset.range 64 | (spread b).getLsbD i = true} =
      (Finset.range b).image fun k => 64 * k / b := by
    ext i
    simp only [Finset.mem_filter, Finset.mem_range, Finset.mem_image]
    constructor
    · rintro ⟨hi, hbit⟩
      exact (getLsbD_spread b hi).mp hbit
    · rintro ⟨k, hk, rfl⟩
      exact ⟨spreadPosition_lt hk, (getLsbD_spread b (spreadPosition_lt hk)).mpr ⟨k, hk, rfl⟩⟩
  rw [popcount_eq_card, hbits]
  obtain rfl | h0 := Nat.eq_zero_or_pos b
  · rfl
  · rw [Finset.card_image_of_injective _ (strictMono_spreadPosition h0 h64).injective, Finset.card_range]

theorem spread_bit_zero {b : Nat} (h0 : 0 < b) : (spread b).getLsbD 0 = true :=
  (getLsbD_spread b (by omega)).mpr ⟨0, h0, by simp⟩

/-- The last position is 63 only if all 64 bits are set (R74 (d)). -/
theorem spread_bit_top {b : Nat} (h63 : b ≤ 63) : (spread b).getLsbD 63 = false := by
  rw [← Bool.not_eq_true, getLsbD_spread b (by omega)]
  rintro ⟨k, hk, htop⟩
  have hle : 63 * b ≤ 64 * k := (Nat.le_div_iff_mul_le (by omega)).mp htop.ge
  omega

/-! ### The table (R73) -/

/-- Each word of the table is the spread of its level's count. -/
theorem lookup_eq_spread : ∀ n : Level, lookup n = spread (bitCount n.toNat) := by
  decide +kernel

theorem popcount_lookup (n : Level) : popcount (lookup n) = bitCount n.toNat := by
  rw [lookup_eq_spread, popcount_spread (Nat.le_succ_of_le (bitCount_le n))]

/-- Two levels share a word when they have the same count. -/
theorem lookup_eq_iff (m n : Level) : lookup m = lookup n ↔ bitCount m.toNat = bitCount n.toNat := by
  refine ⟨fun h => ?_, fun h => ?_⟩
  · rw [← popcount_lookup, h, popcount_lookup]
  · rw [lookup_eq_spread, h, lookup_eq_spread]

/-- Settles O9: the gamma formula bounds the cube, and the spreading formula sets as many bits as it says. -/
theorem tableFollowsTheFormulas : Obligations.TableFollowsTheFormulas := fun n =>
  ⟨bitCount n.toNat, rfl, .inr (sq_le_of_bitCount n.toNat), lt_sq_of_bitCount n.toNat, popcount_lookup n,
    lookup_eq_spread n⟩

theorem toNat_nextLevel {n : Level} (h : n ≠ 63#6) : (n + 1#6).toNat = n.toNat + 1 := by
  bv_omega

theorem toNat_lt_of_ne_top {n : Level} (h : n ≠ 63#6) : n.toNat < 63 := by
  bv_omega

/-- The levels that share their word with the next one (R74 (g), (h)). -/
theorem lookup_eq_succ_iff {n : Level} (h : n ≠ 63#6) :
    lookup n = lookup (n + 1#6) ↔ n ∈ [0#6, 1#6, 3#6, 4#6, 6#6, 8#6, 11#6, 14#6, 18#6] := by
  rw [lookup_eq_iff, toNat_nextLevel h, bitCount_eq_succ_iff n.toNat (toNat_lt_of_ne_top h)]
  simp [← BitVec.toNat_inj]

/-- From level 20 up the word of a level is no other level's (R74 (h)). -/
theorem eq_of_lookup_eq {m n : Level} (hn : 20 ≤ n.toNat) (h : lookup m = lookup n) : m = n := by
  have hcount := (lookup_eq_iff m n).mp h
  obtain hlt | heq | hgt := Nat.lt_trichotomy m.toNat n.toNat
  · exact absurd hcount (bitCount_lt hlt hn (Nat.le_of_lt_succ n.isLt)).ne
  · exact BitVec.eq_of_toNat_eq heq
  · exact absurd hcount (bitCount_lt hgt (hn.trans hgt.le) (Nat.le_of_lt_succ m.isLt)).ne'

/-- Settles O10: each property is one of the count or of the spreading. -/
theorem tableIsMonotoneAndTopBitFree : Obligations.TableIsMonotoneAndTopBitFree := by
  refine ⟨fun n hn => ?dark, fun n hn => ?monotone, fun n => ?topBit, rfl, fun n hn => ?bitZero,
    fun n => lookup_eq_succ_iff, fun m n => eq_of_lookup_eq⟩
  case dark =>
    have hcount : bitCount n.toNat = 0 := Nat.le_zero.mp ((bitCount_mono hn).trans_eq bitCount_two)
    rw [lookup_eq_spread, hcount]
    rfl
  case monotone =>
    rw [popcount_lookup, popcount_lookup, toNat_nextLevel hn]
    exact bitCount_mono (Nat.le_succ _)
  case topBit => rw [lookup_eq_spread, spread_bit_top (bitCount_le n)]
  case bitZero =>
    rw [lookup_eq_spread] at hn ⊢
    refine spread_bit_zero (Nat.pos_of_ne_zero fun h0 => hn ?_)
    rw [h0]
    rfl

/-- LOOKUP reports its word (R70). -/
theorem exec_lookup (n : Level) (s : State) :
    exec (.lookup n) s = .next { s with returns := s.returns ++ [.pattern (lookup n)] } := rfl

/-- Settles O11: the word reported is the one at the address. -/
theorem lookupAnswersTheTableWord : Obligations.LookupAnswersTheTableWord := fun n s => exec_lookup n s

end Sys2Proof.Machine
end

section
/-! The engine commands (41_engine_commands.md): each command by what its check says of the index, the duration of a
fade in ticks, and a fade from its start to its last tick. -/

namespace Sys2Proof.Machine

variable (s : State)

/-! ### INIT (R81, R163) -/

/-- INIT's next state, with its two endings written as one. -/
theorem exec_init :
    exec .init s = .next { s with
      diodes := Vector.replicate 24 Diode.zero, masks := Vector.replicate 63 0#24
      stored := Vector.replicate 24 0#6, slot := 0
      inited := true, tickArmed := true, armed := s.armOk, pendingTicks := 0
      errorLog := s.errorLog ++ (if s.armOk then [] else [.armFail])
      returns := s.returns ++ [.status .init (if s.armOk then .ok else .armFail)] } := by
  unfold exec execInit
  cases s.armOk
  · rfl
  · simp [State.succeed, State.ret]

/-- Settles O12: every element of the vectors INIT writes is zero. -/
theorem initZeroesAndArms : Obligations.InitZeroesAndArms := fun s =>
  ⟨_, exec_init s, fun _ => by simp [State.diode, Diode.zero], fun _ => by simp [State.bufRead],
    fun _ => by simp, rfl⟩

/-! ### The checks, and a command by their outcome (R83, R161, R165, R167) -/

theorem State.checkChannel_of_uninitialised {s : State} (k : Command) (index : Byte) (hi : s.inited = false) :
    s.checkChannel k index = .error (.notInitialised k) := by
  simp [State.checkChannel, hi]

theorem State.checkChannel_of_badIndex {s : State} {index : Byte} (k : Command) (hi : s.inited = true)
    (h : 24 ≤ index.toNat) : s.checkChannel k index = .error (.badIndex k index) := by
  simp [State.checkChannel, hi, channelOf_eq_none.mpr h]

section
variable {s : State} {index : Byte} {e : LogEntry}

theorem exec_get_of_error (h : s.checkChannel .get index = .error e) :
    exec (.get index) s = .next ((s.log e).ret (.level e.status 0#6)) := by
  simp [exec, execGet, State.getChecked, h, Config.defaultLevel]

theorem exec_set_of_error (level : LevelOperand) (h : s.checkChannel .set index = .error e) :
    exec (.set index level) s = .next (s.raise .set e) := by
  simp [exec, execSet, State.setCommand, State.setChecked, h]

theorem exec_fade_of_error (level : LevelOperand) (ms : BitVec 16) (h : s.checkChannel .fade index = .error e) :
    exec (.fade index level ms) s = .next (s.raise .fade e) := by
  simp [exec, execFade, State.fadeChecked, h]

theorem exec_wset_of_error (velocity : Byte) (h : s.checkChannel .wset index = .error e) :
    exec (.wset index velocity) s = .next (s.raise .wset e) := by
  simp [exec, execWset, h]

theorem exec_wsetall_of_uninitialised (velocity : Byte) (hi : s.inited = false) :
    exec (.wsetall velocity) s = .next (s.raise .wsetall (.notInitialised .wsetall)) := by
  simp [exec, execWsetall, hi]

variable {c : Channel}

theorem exec_get (hi : s.inited = true) (hc : index.toNat = c.val) :
    exec (.get index) s = .next (s.ret (.level .ok (s.diode c).cur)) := by
  simp [exec, execGet, State.getChecked, State.checkChannel_of_channel .get hi hc]

theorem exec_set (level : LevelOperand) (hi : s.inited = true) (hc : index.toNat = c.val) :
    exec (.set index level) s = .next ((s.setLevel c level.toInt).succeed .set) := by
  simp [exec, execSet, State.setCommand, State.setChecked, State.checkChannel_of_channel .set hi hc, signedLevel]

theorem exec_fade (level : LevelOperand) (ms : BitVec 16) (hi : s.inited = true) (hc : index.toNat = c.val) :
    exec (.fade index level ms) s =
      .next ((s.startFade c (clampLevel level.toInt) (fadeTicks Config.fadeTickHz ms)).succeed .fade) := by
  simp [exec, execFade, State.fadeChecked, State.checkChannel_of_channel .fade hi hc, signedLevel]

end

/-- Settles O13: the check has the three outcomes of the statement. -/
theorem getAnswersTheCommittedLevel : Obligations.GetAnswersTheCommittedLevel := fun index _ =>
  ⟨fun hi => exec_get_of_error (State.checkChannel_of_uninitialised .get index hi),
    fun hi h => exec_get_of_error (State.checkChannel_of_badIndex .get hi h),
    fun _ hi hc => exec_get hi hc⟩

/-- Settles O15: what the check refuses is raised in the state the command began in. -/
theorem refusedCommandsChangeNothing : Obligations.RefusedCommandsChangeNothing := by
  intro index velocity level ms s
  refine ⟨fun hi => ?uninitialised, fun hi h => ?badIndex⟩
  case uninitialised =>
    have refused := fun k => State.checkChannel_of_uninitialised k index hi
    exact ⟨exec_set_of_error level (refused .set), exec_fade_of_error level ms (refused .fade),
      exec_wset_of_error velocity (refused .wset), exec_wsetall_of_uninitialised velocity hi⟩
  case badIndex =>
    have refused := fun k => State.checkChannel_of_badIndex k hi h
    exact ⟨exec_set_of_error level (refused .set), exec_fade_of_error level ms (refused .fade),
      exec_wset_of_error velocity (refused .wset)⟩

/-! ### A record written and a level applied, with a status after it (R80, R84, R85) -/

theorem State.sameButColumnWrite.inited_eq {s t : State} (h : s.sameButColumnWrite t) : t.inited = s.inited := by
  rw [h.1]

theorem State.sameButColumnWrite.tickArmed_eq {s t : State} (h : s.sameButColumnWrite t) :
    t.tickArmed = s.tickArmed := by
  rw [h.1]

theorem State.sameButColumnWrite.returns_eq {s t : State} (h : s.sameButColumnWrite t) : t.returns = s.returns := by
  rw [h.1]

/-- No Apply looks at the statuses returned, or writes them. -/
theorem State.applyWith_succeed (atomic : Bool) (c : Channel) (v : Level) (k : Command) :
    (s.succeed k).applyWith atomic c v = (s.applyWith atomic c v).succeed k := by
  have hframe := (s.applyWith_frame atomic c v).1
  have hreports := s.applyWith_withReports s.stored s.packets (s.returns ++ [.status k .ok]) s.turns atomic c v
  refine hreports.trans ?_
  rw [hframe]
  rfl

theorem State.becomesByApply.succeed {s t : State} {c : Channel} {d : Diode} {v : Level} (k : Command)
    (h : s.becomesByApply t c d v) : (s.succeed k).becomesByApply (t.succeed k) c d v := by
  obtain ⟨hsame, hnew⟩ := h
  refine ⟨fun e => ?_, fun n => ?_⟩
  · rw [hsame e]
    rfl
  · rw [hnew n]
    exact (State.applyWith_succeed _ _ c v k).symm

theorem State.becomesByApply_applyIfChanged (c : Channel) (d : Diode) (v : Level) :
    s.becomesByApply ((s.setDiode c d).applyIfChanged c v) c d v := by
  obtain ⟨hv, e⟩ | ⟨hv, e⟩ := (s.setDiode c d).applyIfChanged_cases c v <;> rw [State.diode_setDiode_self] at hv
  · exact ⟨fun _ => e, fun n => absurd hv n⟩
  · exact ⟨fun n => absurd n hv, fun _ => e⟩

/-- Settles O14: SET's record, column and frame, and then its status. -/
theorem setCommitsTheClampedLevel : Obligations.SetCommitsTheClampedLevel := by
  intro index level s c hi hc
  exact ⟨_, clampLevel level.toInt, exec_set level hi hc, clampLevel_toNat _,
    by rw [State.diode_succeed, State.diode_setLevel, if_pos rfl],
    s.columnShows_setLevel_of_ne c _, s.columnKept_setLevel c _,
    fun c' h => (s.channelKept_setLevel h _).1, s.otherColumnsKept_setLevel c _,
    State.sameButColumnWrite_succeed .set (s.setLevel_frame c _), (s.setLevel_becomes c _).succeed .set⟩

/-! ### The duration of a fade (R86) -/

theorem Config.fadeTickHz_le : Config.fadeTickHz ≤ 65535 := Config.fadeTickHzPred.isLt

/-- Two factors of 16 bits: the product fits 32 bits (R86). -/
theorem durationProduct_le {hz : Nat} (h : hz ≤ 65535) (ms : BitVec 16) : ms.toNat * hz ≤ 65535 * 65535 :=
  Nat.mul_le_mul (Nat.le_of_lt_succ ms.isLt) h

theorem fadeTicks_toNat {hz : Nat} (h : hz ≤ 65535) (ms : BitVec 16) :
    (fadeTicks hz ms).toNat = ms.toNat * hz / 1000 := by
  have hproduct := durationProduct_le h ms
  rw [fadeTicks, BitVec.toNat_ofNat]
  omega

/-- Settles O17: the product is bounded by that of the largest factors. -/
theorem durationConversionNeverWraps : Obligations.DurationConversionNeverWraps := by
  refine ⟨fun hz ms h => ?_, Nat.le_add_left 1 _, Config.fadeTickHz_le⟩
  have hproduct := durationProduct_le h ms
  rw [fadeTicks_toNat h]
  omega

/-- A fade has no tick exactly if its product is below one tick's worth (R86). -/
theorem fadeTicks_eq_zero_iff (ms : BitVec 16) :
    fadeTicks Config.fadeTickHz ms = 0#32 ↔ ms.toNat * Config.fadeTickHz < 1000 := by
  rw [BitVec.toNat_eq, fadeTicks_toNat Config.fadeTickHz_le, BitVec.toNat_ofNat]
  omega

/-! ### FADE (R85) -/

theorem State.startFade_of_ne_zero (c : Channel) (t : Level) {d : BitVec 32} (h : d ≠ 0#32) :
    s.startFade c t d = s.setDiode c ⟨(s.diode c).cur, (s.diode c).cur, t, d, 0#32⟩ :=
  if_neg h

theorem State.startFade_zero (c : Channel) (t : Level) :
    s.startFade c t 0#32 =
      (s.setDiode c ⟨(s.diode c).cur, (s.diode c).cur, t, 0#32, 0#32⟩).applyIfChanged c t := by
  simp [State.startFade]

theorem State.columnShows_startFade_zero (c : Channel) (t : Level) (h : t ≠ (s.diode c).cur) :
    (s.startFade c t 0#32).columnShows c (lookup t) := by
  rw [State.startFade_zero]
  exact State.columnShows_applyIfChanged_of_ne _ c t (by rwa [State.diode_setDiode_self])

theorem State.columnKept_startFade_zero (c : Channel) (t : Level) (h : t = (s.diode c).cur) :
    s.columnKept (s.startFade c t 0#32) c := by
  rw [State.startFade_zero]
  exact State.columnKept_applyIfChanged_of_eq _ c t (by rwa [State.diode_setDiode_self])

theorem State.startFade_zero_becomes (c : Channel) (t : Level) :
    s.becomesByApply (s.startFade c t 0#32) c ⟨(s.diode c).cur, (s.diode c).cur, t, 0#32, 0#32⟩ t := by
  rw [State.startFade_zero]
  exact s.becomesByApply_applyIfChanged c _ t

/-- Settles O16: with a tick to wait for FADE writes the record alone, without one it applies the target too. -/
theorem fadeRecordsItsEndpoints : Obligations.FadeRecordsItsEndpoints := by
  intro index level ms s c hi hc
  refine ⟨_, clampLevel level.toInt, _, exec_fade level ms hi hc, clampLevel_toNat _,
    fadeTicks_toNat Config.fadeTickHz_le ms, fun c' h => (s.channelKept_startFade h _ _).1, fun hd => ?ticks,
    fun hd => ?atOnce⟩
  case ticks =>
    have hne : fadeTicks Config.fadeTickHz ms ≠ 0#32 := fun e => by simp [e] at hd
    rw [State.startFade_of_ne_zero s c _ hne]
    exact ⟨s.diode_setDiode_self c _, rfl⟩
  case atOnce =>
    have hzero : fadeTicks Config.fadeTickHz ms = 0#32 := BitVec.eq_of_toNat_eq hd
    rw [hzero]
    exact ⟨by rw [State.diode_succeed, State.diode_startFade, if_pos rfl, if_pos rfl],
      s.columnShows_startFade_zero c _, s.columnKept_startFade_zero c _, s.otherColumnsKept_startFade c _ _,
      State.sameButColumnWrite_succeed .fade (s.startFade_frame c _ _), (s.startFade_zero_becomes c _).succeed .fade⟩

/-! ### GET after a command (R89) -/

theorem execAll_cons {i : Instr} {is : List Instr} {s t : State} (h : exec i s = .next t) :
    execAll (i :: is) s = execAll is t := by
  simp [execAll, h]

theorem execAll_get {index : Byte} {c : Channel} {t : State} (hi : t.inited = true) (hc : index.toNat = c.val) :
    execAll [.get index] t = .next (t.ret (.level .ok (t.diode c).cur)) :=
  execAll_cons (exec_get hi hc)

/-- FADE and then GET: the target of a fade without a tick, the level before any other (R89 (b), (c)). -/
theorem execAll_fade_get {index : Byte} {c : Channel} {s : State} (level : LevelOperand) (ms : BitVec 16)
    (hi : s.inited = true) (hc : index.toNat = c.val) :
    ∃ t : State, execAll [.fade index level ms, .get index] s = .next t ∧
      t.returns = s.returns ++ [.status .fade .ok, .level .ok
        (if ms.toNat * Config.fadeTickHz < 1000 then clampLevel level.toInt else (s.diode c).cur)] := by
  have hframe := s.startFade_frame c (clampLevel level.toInt) (fadeTicks Config.fadeTickHz ms)
  refine ⟨_, (execAll_cons (exec_fade level ms hi hc)).trans (execAll_get (hframe.inited_eq.trans hi) hc), ?_⟩
  simp [hframe.returns_eq, State.diode_startFade, fadeTicks_eq_zero_iff]

/-- Settles O18: GET reads the level that SET, or the FADE at once, has just committed. -/
theorem setThenGetAnswersTheClampedLevel : Obligations.SetThenGetAnswersTheClampedLevel := by
  intro index level ms s c hi hc
  refine ⟨?set, fun hshort => ?fade⟩
  case set =>
    have hframe := s.setLevel_frame c level.toInt
    refine ⟨_, _, clampLevel_toNat level.toInt,
      (execAll_cons (exec_set level hi hc)).trans (execAll_get (hframe.inited_eq.trans hi) hc), ?_⟩
    simp [hframe.returns_eq, State.diode_setLevel]
  case fade =>
    obtain ⟨t, ht, hreturns⟩ := execAll_fade_get level ms hi hc
    rw [if_pos hshort] at hreturns
    exact ⟨t, _, clampLevel_toNat level.toInt, ht, hreturns⟩

/-! ### A fade along its ticks (R100, R101, R104) -/

/-- At the end of its duration a ramp stands at its target (R101 (a)). -/
theorem rampAt_dur (src tgt : Level) {d : Nat} (hd : 1 ≤ d) : rampAt src tgt d d = tgt.toNat := by
  unfold rampAt
  rw [Int.mul_tdiv_cancel _ (by omega)]
  omega

/-- The record of a fade once `n` of its ticks have elapsed. -/
def Diode.fadeAt (d : Diode) (n : Nat) : Diode :=
  { d with cur := BitVec.ofInt 6 (rampAt d.src d.tgt d.dur.toNat n), tick := BitVec.ofNat 32 n }

/-- A record that stands on its ramp is that of its own elapsed ticks. -/
theorem Diode.fadeAt_tick {d : Diode}
    (h : (d.cur.toNat : Int) = rampAt d.src d.tgt d.dur.toNat d.tick.toNat) : d.fadeAt d.tick.toNat = d := by
  unfold Diode.fadeAt
  rw [← h]
  simp

/-- At the end of its fade a diode stands at its target, idle (R104). -/
theorem Diode.fadeAt_dur {d : Diode} (h : 1 ≤ d.dur.toNat) :
    d.fadeAt d.dur.toNat = { d with cur := d.tgt, tick := d.dur } := by
  unfold Diode.fadeAt
  rw [rampAt_dur _ _ h]
  simp

/-- One TICK of a fade is one more tick elapsed (R100). -/
theorem Diode.ticked_fadeAt {d : Diode} {n : Nat} (h : n < d.dur.toNat) :
    (d.fadeAt n).ticked = d.fadeAt (n + 1) := by
  have htick : (BitVec.ofNat 32 n).toNat = n := Nat.mod_eq_of_lt (h.trans d.dur.isLt)
  have hactive : ¬ (d.fadeAt n).idle = true := fun e => by
    have hn : BitVec.ofNat 32 n = d.dur := by simpa [Diode.idle, Diode.fadeAt] using e
    rw [← hn, htick] at h
    exact lt_irrefl n h
  rw [Diode.ticked, if_neg hactive]
  simp [Diode.fadeAt, Diode.rampLevel, htick, BitVec.ofNat_add]

/-- A diode on its ramp moves one place along it with each tick, up to the end (R104). -/
theorem Diode.ticked_iterate {d : Diode} (hramp : (d.cur.toNat : Int) = rampAt d.src d.tgt d.dur.toNat d.tick.toNat)
    (n : Nat) (hn : d.tick.toNat + n ≤ d.dur.toNat) : Diode.ticked^[n] d = d.fadeAt (d.tick.toNat + n) := by
  induction n with
  | zero => exact (Diode.fadeAt_tick hramp).symm
  | succ n ih => rw [Function.iterate_succ_apply', ih (by omega), Diode.ticked_fadeAt (by omega), Nat.add_assoc]

theorem State.tickAll_iterate_frame (n : Nat) : s.sameButColumnWrite (State.tickAll^[n] s) := by
  induction n with
  | zero => exact s.sameButColumnWrite_refl
  | succ n ih =>
    rw [Function.iterate_succ_apply']
    exact State.sameButColumnWrite_trans ih (State.tickAll_frame _)

theorem State.diode_tickAll_iterate (n : Nat) (c : Channel) :
    (State.tickAll^[n] s).diode c = Diode.ticked^[n] (s.diode c) := by
  induction n with
  | zero => rfl
  | succ n ih => rw [Function.iterate_succ_apply', State.diode_tickAll, ih, Function.iterate_succ_apply']

theorem exec_tick {s : State} (h : s.tickArmed = true) : exec .tick s = .next s.tickAll := by
  simp [exec, execTick, h]

/-- Ticks of an armed timer, and what comes after them. -/
theorem execAll_ticks (n : Nat) (is : List Instr) {s : State} (h : s.tickArmed = true) :
    execAll (List.replicate n .tick ++ is) s = execAll is (State.tickAll^[n] s) := by
  induction n generalizing s with
  | zero => rfl
  | succ n ih =>
    have harmed : s.tickAll.tickArmed = true := s.tickAll_frame.tickArmed_eq.trans h
    rw [List.replicate_succ, List.cons_append, execAll_cons (exec_tick h), ih harmed, Function.iterate_succ_apply]

/-- All the ticks of a fade, from its start, bring the channel to the target (R89 (c), R104). -/
theorem State.cur_tickAll_startFade (c : Channel) (t : Level) {d : BitVec 32} (hd : 1 ≤ d.toNat) :
    ((State.tickAll^[d.toNat] ((s.startFade c t d).succeed .fade)).diode c).cur = t := by
  have hne : d ≠ 0#32 := fun e => by simp [e] at hd
  have hstart : ((s.startFade c t d).succeed .fade).diode c = ⟨(s.diode c).cur, (s.diode c).cur, t, d, 0#32⟩ := by
    rw [State.diode_succeed, State.diode_startFade, if_pos rfl, if_neg hne]
  rw [State.diode_tickAll_iterate, hstart, Diode.ticked_iterate (rampAt_zero _ t _).symm d.toNat (by simp)]
  simp only [BitVec.toNat_ofNat, Nat.zero_mod, Nat.zero_add]
  rw [Diode.fadeAt_dur hd]

/-- FADE, all its ticks, and then GET: the target (R89 (c)). -/
theorem execAll_fade_ticks_get {index : Byte} {c : Channel} {s : State} (level : LevelOperand) (ms : BitVec 16)
    (hi : s.inited = true) (htimer : s.tickArmed = true) (hc : index.toNat = c.val)
    (hd : 1 ≤ (fadeTicks Config.fadeTickHz ms).toNat) :
    ∃ t : State,
      execAll (.fade index level ms ::
        (List.replicate (fadeTicks Config.fadeTickHz ms).toNat .tick ++ [.get index])) s = .next t ∧
      t.returns = s.returns ++ [.status .fade .ok, .level .ok (clampLevel level.toInt)] := by
  have hstart := State.sameButColumnWrite_succeed .fade
    (s.startFade_frame c (clampLevel level.toInt) (fadeTicks Config.fadeTickHz ms))
  have hend := State.sameButColumnWrite_trans hstart
    (State.tickAll_iterate_frame _ (fadeTicks Config.fadeTickHz ms).toNat)
  refine ⟨_, (execAll_cons (exec_fade level ms hi hc)).trans
    ((execAll_ticks _ _ (hstart.tickArmed_eq.trans htimer)).trans
      (execAll_get (hend.inited_eq.trans hi) hc)), ?_⟩
  simp [hend.returns_eq, s.cur_tickAll_startFade c _ hd]

/-- Settles O26: the ticks take the fade along its ramp to the end, and GET reads the level there. -/
theorem fadeReachesItsTargetAfterItsTicks : Obligations.FadeReachesItsTargetAfterItsTicks := by
  intro index level ms s c ⟨⟨_, htimer⟩, _⟩ hi hc hticks
  refine ⟨?before, ?after⟩
  case before =>
    obtain ⟨t, ht, hreturns⟩ := execAll_fade_get level ms hi hc
    rw [if_neg (Nat.not_lt.mpr hticks)] at hreturns
    exact ⟨t, ht, hreturns⟩
  case after =>
    have hd := fadeTicks_toNat Config.fadeTickHz_le ms
    obtain ⟨t, ht, hreturns⟩ := execAll_fade_ticks_get level ms hi (htimer.trans hi) hc (by omega)
    rw [hd] at ht
    exact ⟨t, _, clampLevel_toNat level.toInt, ht, hreturns⟩

end Sys2Proof.Machine
end

section
/-! TICK (42_fade_tick.md): a ramp over its whole duration, what one pulse makes of every channel, lane by lane, and what the
ticks that remain to a fade make of its diode. -/

namespace Sys2Proof.Machine

variable (s : State)

/-! ### The ramp (R101) -/

/-- A ramp keeps the order of its products: the one division, truncating, is monotone. -/
theorem rampAt_le_of_product_le {src tgt : Level} {d m n : Nat}
    (h : ((tgt.toNat : Int) - src.toNat) * m ≤ ((tgt.toNat : Int) - src.toNat) * n) (hd : 1 ≤ d) :
    rampAt src tgt d m ≤ rampAt src tgt d n :=
  Int.add_le_add_left (Int.tdiv_le_tdiv (by omega) h) _

/-- A ramp upward never falls (R101 (c)). -/
theorem rampAt_le_succ {src tgt : Level} (h : src ≤ tgt) (d n : Nat) (hd : 1 ≤ d) :
    rampAt src tgt d n ≤ rampAt src tgt d (n + 1) :=
  have hle : src.toNat ≤ tgt.toNat := h
  rampAt_le_of_product_le (mul_le_mul_of_nonneg_left (by omega) (by omega)) hd

/-- A ramp downward never rises (R101 (c)). -/
theorem rampAt_succ_le {src tgt : Level} (h : tgt ≤ src) (d n : Nat) (hd : 1 ≤ d) :
    rampAt src tgt d (n + 1) ≤ rampAt src tgt d n :=
  have hle : tgt.toNat ≤ src.toNat := h
  rampAt_le_of_product_le (mul_le_mul_of_nonpos_left (by omega) (by omega)) hd

/-- The first tick of a ramp flatter than one level a tick does not move it (R101 (e)). -/
theorem rampAt_one_of_flat {src tgt : Level} {d : Nat} (h : ((tgt.toNat : Int) - src.toNat).natAbs < d) :
    rampAt src tgt d 1 = src.toNat := by
  have hzero : Int.tdiv ((tgt.toNat : Int) - src.toNat) d = 0 :=
    Int.natAbs_eq_zero.mp ((Int.natAbs_tdiv _ _).trans (Nat.div_eq_of_lt h))
  simp [rampAt, hzero]

/-- Settles O23: the product under the one division is monotone in the ticks elapsed. -/
theorem rampLandsAndNeverTurnsBack : Obligations.RampLandsAndNeverTurnsBack := fun src tgt d hd =>
  ⟨rampAt_zero src tgt d, rampAt_dur src tgt hd, fun n hn => rampAt_between src tgt d n hd hn,
    fun n h => rampAt_le_succ h d n hd, fun n h => rampAt_succ_le h d n hd, rampAt_one_of_flat⟩

/-! ### A pulse the timer ignores (R103) -/

theorem exec_tick_of_unarmed {s : State} (h : s.tickArmed = false) : exec .tick s = .next s := by
  simp [exec, execTick, h]

/-- Settles O21. -/
theorem tickIsIgnoredUntilArmed : Obligations.TickIsIgnoredUntilArmed := fun _ h => exec_tick_of_unarmed h

/-! ### What TICK makes of a record (R100) -/

theorem Diode.idle_iff {d : Diode} : d.idle = true ↔ d.tick = d.dur := by
  simp [Diode.idle]

theorem Diode.active_iff {d : Diode} : d.active = true ↔ d.tick ≠ d.dur := by
  simp [Diode.active, Diode.idle]

theorem Diode.ticked_of_idle {d : Diode} (h : d.tick = d.dur) : d.ticked = d :=
  if_pos (Diode.idle_iff.mpr h)

theorem Diode.ticked_of_active {d : Diode} (h : d.tick ≠ d.dur) :
    d.ticked = { d with cur := d.rampLevel, tick := d.tick + 1#32 } :=
  if_neg fun hidle => h (Diode.idle_iff.mp hidle)

/-- Below the end of a fade there is room for one more tick: the count does not wrap. -/
theorem Diode.tick_succ_toNat {d : Diode} (h : d.tick.toNat < d.dur.toNat) :
    (d.tick + 1#32).toNat = d.tick.toNat + 1 := by
  rw [BitVec.toNat_add, BitVec.toNat_ofNat]
  omega

/-- An active diode that meets the bound of R16 has a tick to go. -/
theorem Diode.tick_lt_dur {d : Diode} (hle : d.tick.toNat ≤ d.dur.toNat) (h : d.tick ≠ d.dur) :
    d.tick.toNat < d.dur.toNat :=
  lt_of_le_of_ne hle fun e => h (BitVec.eq_of_toNat_eq e)

/-! ### The lanes (R105) -/

/-- The lane of channel `c` for a diode that had the record `d` before the TICK. -/
def State.moveLane (u : State) (c : Channel) (d : Diode) : State :=
  if d.tick = d.dur then u
  else
    (if d.ticked.cur = d.cur then u
      else u.applyWith Config.applyAtomic c d.ticked.cur).setTick c (d.tick + 1#32)

/-- A lane goes by the record of its channel. -/
theorem State.tickLane_eq_moveLane (c : Channel) : s.tickLane c = s.moveLane c (s.diode c) := by
  unfold State.moveLane
  obtain ⟨hidle, h⟩ | ⟨hactive, h⟩ := s.tickLane_cases c
  · rw [h, if_pos (Diode.idle_iff.mp hidle)]
  · have hne : (s.diode c).tick ≠ (s.diode c).dur := fun e => by simp [Diode.idle_iff.mpr e] at hactive
    rw [h, if_neg hne, Diode.ticked_of_active hne]
    rfl

/-- The lanes of different channels do not meet: each goes by the record from before the TICK. -/
theorem State.tickLanes_eq_moveLanes (before : Channel → Diode) (cs : List Channel) (hcs : cs.Nodup) (u : State)
    (hu : ∀ c ∈ cs, u.diode c = before c) :
    cs.foldl State.tickLane u = cs.foldl (fun u c => u.moveLane c (before c)) u := by
  induction cs generalizing u with
  | nil => rfl
  | cons a cs ih =>
    obtain ⟨ha, hn⟩ := List.nodup_cons.mp hcs
    rw [List.forall_mem_cons] at hu
    obtain ⟨hua, hucs⟩ := hu
    have hlane : u.tickLane a = u.moveLane a (before a) := by rw [State.tickLane_eq_moveLane, hua]
    rw [List.foldl_cons, List.foldl_cons, ← hlane]
    refine ih hn _ fun c hc => ?_
    rw [State.diode_tickLane, if_neg (ne_of_mem_of_not_mem hc ha), hucs c hc]

theorem State.tickAll_eq_moveLanes :
    s.tickAll = (List.finRange 24).foldl (fun u c => u.moveLane c (s.diode c)) s :=
  State.tickLanes_eq_moveLanes s.diode _ (List.nodup_finRange 24) s fun _ _ => rfl

/-- Lanes without a new level write no column: the diode file is all that they change (R100). -/
theorem State.moveLanes_of_levels_kept (before : Channel → Diode)
    (h : ∀ c, (before c).ticked.cur = (before c).cur) (cs : List Channel) (u : State) :
    ∃ ds, cs.foldl (fun u c => u.moveLane c (before c)) u = { u with diodes := ds } := by
  induction cs generalizing u with
  | nil => exact ⟨u.diodes, rfl⟩
  | cons a cs ih =>
    obtain ⟨ds, hrest⟩ := ih (u.moveLane a (before a))
    refine ⟨ds, hrest.trans ?_⟩
    unfold State.moveLane
    rw [if_pos (h a)]
    split <;> rfl

theorem State.tickAll_of_levels_kept (h : ∀ c, (s.diode c).ticked.cur = (s.diode c).cur) :
    s.tickAll = { s with diodes := s.tickAll.diodes } := by
  obtain ⟨ds, hds⟩ := State.moveLanes_of_levels_kept s.diode h (List.finRange 24) s
  rw [State.tickAll_eq_moveLanes, hds]

/-- Settles O20: the whole TICK by its lanes, and each record by what one tick makes of it. -/
theorem tickMovesEveryActiveDiode : Obligations.TickMovesEveryActiveDiode := by
  intro s htimer hinited hcounters
  refine ⟨s.tickAll, exec_tick htimer, s.tickAll_frame, fun hkept => ?levelsKept, ?lanes, fun c => ?channel⟩
  case levelsKept =>
    exact s.tickAll_of_levels_kept fun c => by rw [← State.diode_tickAll, hkept c]
  case lanes =>
    simp only [State.diode_tickAll]
    exact s.tickAll_eq_moveLanes
  case channel =>
    obtain ⟨hsame, hnew⟩ := s.column_tickAll c
    rw [State.diode_tickAll]
    refine ⟨fun hidle => ?idle, fun hactive => ?active⟩
    case idle =>
      have hd := Diode.ticked_of_idle hidle
      exact ⟨hd, hsame (by rw [hd])⟩
    case active =>
      have hlt := Diode.tick_lt_dur (hcounters hinited c).1 hactive
      have hramp := (s.diode c).rampLevel_toNat hlt
      have hd := Diode.ticked_of_active hactive
      refine ⟨?_, ?_, ?_, ?_, ?_, hnew, hsame⟩ <;> rw [hd]
      · exact hramp
      · exact Diode.tick_succ_toNat hlt

/-! ### Lanes are independent (R105) -/

/-- Channels alike in record and column are alike after the lanes. -/
theorem State.tickAll_channel_congr {s s' : State} {c : Channel} (hd : s.diode c = s'.diode c)
    (hcol : s.columnKept s' c) :
    s.tickAll.diode c = s'.tickAll.diode c ∧ s.tickAll.columnKept s'.tickAll c := by
  obtain ⟨hsame, hnew⟩ := s.column_tickAll c
  obtain ⟨hsame', hnew'⟩ := s'.column_tickAll c
  rw [← hd] at hsame' hnew'
  refine ⟨by rw [State.diode_tickAll, State.diode_tickAll, hd], fun j => ?_⟩
  by_cases hcur : (s.diode c).ticked.cur = (s.diode c).cur
  · rw [hsame' hcur j, hsame hcur j, hcol j]
  · rw [hnew' hcur j, hnew hcur j]

/-- Settles O24: the timer is armed in both runs or in neither. -/
theorem tickLanesAreIndependent : Obligations.TickLanesAreIndependent := by
  intro s s' c htimer hd hcol
  cases harmed : s.tickArmed with
  | false => exact ⟨s, s', exec_tick_of_unarmed harmed, exec_tick_of_unarmed (htimer ▸ harmed), hd, hcol⟩
  | true =>
    exact ⟨s.tickAll, s'.tickAll, exec_tick harmed, exec_tick (htimer ▸ harmed), State.tickAll_channel_congr hd hcol⟩

/-! ### The ticks that remain to a fade (R104) -/

/-- Short of its duration a fade is active. -/
theorem Diode.fadeAt_active {d : Diode} {n : Nat} (h : n < d.dur.toNat) : (d.fadeAt n).active = true := by
  have hn : (BitVec.ofNat 32 n).toNat = n := Nat.mod_eq_of_lt (h.trans d.dur.isLt)
  refine Diode.active_iff.mpr fun e => h.ne ?_
  rw [← hn]
  exact congrArg BitVec.toNat e

theorem State.channelOk.tickAll_iterate {s : State} {c : Channel} (h : s.channelOk c) (n : Nat) :
    (State.tickAll^[n] s).channelOk c :=
  Function.Iterate.rec (fun t : State => t.channelOk c) h (fun _ ht => State.channelOk.tickAll ht) n

theorem execAll_replicate_tick (n : Nat) {s : State} (h : s.tickArmed = true) :
    execAll (List.replicate n .tick) s = .next (State.tickAll^[n] s) := by
  have hticks := execAll_ticks n [] h
  rwa [List.append_nil] at hticks

/-- `n` ticks on, within its duration, an active diode stands `n` ticks further along its fade. -/
theorem State.diode_tickAll_iterate_of_active {s : State} {c : Channel} (hok : (s.diode c).fadeOk)
    (hactive : (s.diode c).active = true) {n : Nat} (hn : (s.diode c).tick.toNat + n ≤ (s.diode c).dur.toNat) :
    (State.tickAll^[n] s).diode c = (s.diode c).fadeAt ((s.diode c).tick.toNat + n) := by
  obtain ⟨_, _, hramp⟩ := hok
  rw [State.diode_tickAll_iterate, Diode.ticked_iterate (hramp hactive) n hn]

/-- Settles O25: each tick is one place along the fade, and every tick keeps the column at the level. -/
theorem activeDiodeLandsAfterItsRemainingTicks : Obligations.ActiveDiodeLandsAfterItsRemainingTicks := by
  intro s c hinv hinited hactive
  obtain ⟨⟨_, htimer⟩, hchannels⟩ := s.inv_iff.mp hinv
  have hticks := fun n => execAll_replicate_tick n (htimer.trans hinited)
  have hchannel := hchannels hinited c
  have hok := hchannel.1
  have hle : (s.diode c).tick.toNat ≤ (s.diode c).dur.toNat := hok.1
  have hlt := Diode.tick_lt_dur hle (Diode.active_iff.mp hactive)
  refine ⟨?lands, fun n hn => ⟨_, hticks n, ?stillActive⟩⟩
  case lands =>
    have hend := State.diode_tickAll_iterate_of_active hok hactive (Nat.add_sub_of_le hle).le
    rw [Nat.add_sub_of_le hle, Diode.fadeAt_dur (by omega)] at hend
    obtain ⟨_, hshows⟩ := hchannel.tickAll_iterate ((s.diode c).dur.toNat - (s.diode c).tick.toNat)
    rw [hend] at hshows
    exact ⟨_, hticks _, hend, hshows⟩
  case stillActive =>
    rw [State.diode_tickAll_iterate_of_active hok hactive (by omega)]
    exact Diode.fadeAt_active (by omega)

end Sys2Proof.Machine
end

section
/-! The output driver (43_shift_out.md): one SLOT, a cycle of 63 of them over a buffer that stands, and a cycle with a
SET in it. -/

namespace Sys2Proof.Machine

variable (s : State)

/-! ### One SLOT (R110, R112, R114) -/

theorem exec_slot : exec .slot s = .next s.slotStep := rfl

theorem State.slotStep_of_unarmed {s : State} (h : s.armed = false) : s.slotStep = s := by
  obtain ⟨_, e⟩ | ⟨ha, _⟩ := s.slotStep_cases
  · exact e
  · exact absurd (h.symm.trans ha) Bool.false_ne_true

theorem State.slotStep_of_armed {s : State} (h : s.armed = true) :
    s.slotStep =
      { s with
        frames := s.frames ++ [⟨s.slot, s.bufRead s.slot⟩]
        line := s.line ++ (frameBits (s.bufRead s.slot)).map LinePulse.bit ++ [LinePulse.latch]
        chain := s.bufRead s.slot
        q := s.bufRead s.slot
        slot := s.slot + 1 } := by
  obtain ⟨ha, _⟩ | ⟨_, e⟩ := s.slotStep_cases
  · exact absurd (ha.symm.trans h) Bool.false_ne_true
  · exact e

/-- Settles O28: the pulse is the step that does nothing. -/
theorem slotIsIgnoredUntilArmed : Obligations.SlotIsIgnoredUntilArmed := fun s h => by
  rw [exec_slot, State.slotStep_of_unarmed h]

/-- Settles O27: the armed step, with the bits of its frame in the order they are sent. -/
theorem slotPresentsTheMask : Obligations.SlotPresentsTheMask := by
  intro s h
  refine ⟨s.slotStep, exec_slot s, ?_, ?_⟩ <;> rw [State.slotStep_of_armed h]
  · simp [Fin.val_add]
  · simp [frameBits]

/-! ### SLOTs in a row -/

/-- The state after `n` pulses on `slot_tick` and nothing else. -/
def State.afterSlots (n : Nat) : State := (List.replicate n Strobe.slot).foldl State.strobe s

theorem State.afterSlots_succ (n : Nat) : s.afterSlots (n + 1) = (s.afterSlots n).slotStep := by
  simp [State.afterSlots, List.replicate_succ', State.strobe]

theorem execAll_slots (n : Nat) (is : List Instr) (s : State) :
    execAll (List.replicate n .slot ++ is) s = execAll is (s.afterSlots n) := by
  induction n generalizing s with
  | zero => rfl
  | succ n ih => exact (execAll_cons (exec_slot s)).trans (ih s.slotStep)

theorem execAll_replicate_slot (n : Nat) (s : State) :
    execAll (List.replicate n .slot) s = .next (s.afterSlots n) := by
  have hslots := execAll_slots n [] s
  rwa [List.append_nil] at hslots

theorem State.afterSlots_sameButPulses (n : Nat) : s.sameButPulses (s.afterSlots n) :=
  State.strobes_sameButPulses _ s

theorem State.afterSlots_between (n : Nat) : (s.afterSlots n).between = s.between :=
  State.strobes_between _ s

/-- While armed, `n` SLOTs present `n` frames, each the mask of its slot (R110). -/
theorem State.afterSlots_presents {s : State} (h : s.armed = true) (n : Nat) :
    ∃ fs, s.Presents (s.afterSlots n) fs ∧ fs.length = n ∧ ∀ f ∈ fs, f.mask = s.bufRead f.slot := by
  obtain ⟨fs, hpresents, hshows⟩ := State.strobes_present (List.replicate n .slot) s
  exact ⟨fs, hpresents, by rw [hshows.length, if_pos h, List.count_replicate_self], hshows.mask⟩

/-- Each SLOT latches the mask of its slot (R112). -/
theorem State.afterSlots_succ_q {s : State} (h : s.armed = true) (n : Nat) :
    (s.afterSlots (n + 1)).q = s.bufRead (s.afterSlots n).slot := by
  have hkept := s.afterSlots_sameButPulses n
  rw [State.afterSlots_succ, State.slotStep_of_armed (hkept.armed_eq.trans h)]
  exact hkept.bufRead_eq _

theorem State.sameButPulses.inited_eq {s t : State} (h : s.sameButPulses t) : t.inited = s.inited := by
  unfold State.sameButPulses at h
  rw [h]

/-- Pulses write neither records nor columns. -/
theorem State.sameButPulses.channelKept {s t : State} (h : s.sameButPulses t) (c : Channel) : s.channelKept t c :=
  ⟨by rw [State.diode, h.diodes_eq]; rfl, fun j => by rw [h.bufRead_eq]⟩

/-! ### A pattern cycle (R111) -/

section
variable {s} {t : State} {fs gs : List Frame} {f : Frame}

/-- Within one cycle from slot 0 a frame's place is its slot. -/
theorem State.Presents.slot_of_getElem? (h : s.Presents t fs) (hslot : s.slot = 0) (hlen : fs.length ≤ 63) {n : Nat}
    (hn : fs[n]? = some f) : f.slot.val = n := by
  obtain ⟨hlt, _⟩ := List.getElem?_eq_some_iff.mp hn
  rw [h.order n f hn, hslot]
  exact (Nat.mod_eq_of_lt (by simpa using hlt.trans_le hlen)).trans (Nat.zero_add n)

/-- A whole cycle has each slot once, in ascending order. -/
theorem State.Presents.slots_eq_finRange (h : s.Presents t fs) (hslot : s.slot = 0) (hlen : fs.length = 63) :
    fs.map Frame.slot = List.finRange 63 := by
  refine List.ext_getElem (by simp [hlen]) fun n hn _ => Fin.ext ?_
  rw [List.length_map] at hn
  simpa using h.slot_of_getElem? hslot hlen.le (List.getElem?_eq_getElem hn)

/-- A whole cycle over a buffer that stands presents the buffer (R111). -/
theorem State.Presents.eq_map_finRange (h : s.Presents t fs) (hslot : s.slot = 0) (hlen : fs.length = 63)
    (hmask : ∀ f ∈ fs, f.mask = s.bufRead f.slot) : fs = (List.finRange 63).map fun j => ⟨j, s.bufRead j⟩ := by
  rw [← h.slots_eq_finRange hslot hlen, List.map_map]
  exact (List.map_id fs).symm.trans (List.map_congr_left fun f hf => congrArg (Frame.mk f.slot) (hmask f hf))

/-- The first frames of a cycle have the slots below their number. -/
theorem State.Presents.slot_lt_of_mem (h : s.Presents t (fs ++ gs)) (hslot : s.slot = 0)
    (hlen : (fs ++ gs).length = 63) (hf : f ∈ fs) : f.slot.val < fs.length := by
  obtain ⟨n, hn⟩ := List.getElem?_of_mem hf
  obtain ⟨hlt, _⟩ := List.getElem?_eq_some_iff.mp hn
  rwa [h.slot_of_getElem? hslot hlen.le ((List.getElem?_append_left hlt).trans hn)]

/-- The frames of a cycle that follow the first ones have the other slots. -/
theorem State.Presents.le_slot_of_mem (h : s.Presents t (fs ++ gs)) (hslot : s.slot = 0)
    (hlen : (fs ++ gs).length = 63) (hf : f ∈ gs) : fs.length ≤ f.slot.val := by
  obtain ⟨n, hn⟩ := List.getElem?_of_mem hf
  have hplace : (fs ++ gs)[fs.length + n]? = some f := by
    rw [List.getElem?_append_right (Nat.le_add_right _ _), Nat.add_sub_cancel_left, hn]
  rw [h.slot_of_getElem? hslot hlen.le hplace]
  exact Nat.le_add_right _ _

/-- A whole cycle ends where it began. -/
theorem State.Presents.slot_eq_zero (h : s.Presents t fs) (hslot : s.slot = 0) (hlen : fs.length = 63) :
    t.slot = 0 :=
  Fin.ext (by rw [h.slot, hslot, hlen]; rfl)

/-- Bit 63 of a table word is 0, so that its other bits are all there are to count (R74 (d)). -/
theorem countP_lookup_eq_popcount (n : Level) :
    ((List.finRange 63).countP fun j => (lookup n).getLsbD j.val) = popcount (lookup n) := by
  have htop : (lookup n).getLsbD 63 = false := by rw [lookup_eq_spread, spread_bit_top (bitCount_le n)]
  have hsplit : List.finRange 64 = (List.finRange 63).map Fin.castSucc ++ [Fin.last 63] := List.finRange_succ_last
  rw [popcount, hsplit, List.countP_append, List.countP_map, List.countP_singleton, Fin.val_last, htop]
  rfl

/-- In an armed block that meets the invariant every channel does (R17, R19). -/
theorem State.Inv.channelOk (h : s.Inv) (harmed : s.armed = true) (c : Channel) : s.channelOk c := by
  obtain ⟨⟨hinited, _⟩, hchannels⟩ := s.inv_iff.mp h
  exact hchannels (hinited harmed) c

end

/-- Settles O29: the 63 frames are those of the 63 slots, and the last one is latched. -/
theorem patternCyclePresentsTheBuffer : Obligations.PatternCyclePresentsTheBuffer := by
  intro s harmed hslot
  obtain ⟨fs, hpresents, hlen, hmask⟩ := State.afterSlots_presents harmed 63
  have hkept := s.afterSlots_sameButPulses 63
  refine ⟨_, execAll_replicate_slot 63 s, hpresents.slot_eq_zero hslot hlen, ?latched, hkept.diodes_eq,
    hkept.masks_eq, ?frames, fun hinv c => ?count⟩
  case latched =>
    obtain ⟨gs, hbefore, hcount, _⟩ := State.afterSlots_presents harmed 62
    have hlast : (s.afterSlots 62).slot = 62 := Fin.ext (by rw [hbefore.slot, hslot, hcount]; rfl)
    rw [State.afterSlots_succ_q harmed, hlast]
  case frames =>
    rw [hpresents.frames, hpresents.eq_map_finRange hslot hlen hmask]
  case count =>
    obtain ⟨_, hshows⟩ := hinv.channelOk harmed c
    rw [List.countP_map, ← countP_lookup_eq_popcount]
    exact List.countP_congr fun j _ => by rw [Function.comp_apply, hshows j]

/-! ### A SET between two SLOTs (R113) -/

/-- An instruction that presents nothing, between SLOTs: the frames before it show the buffer it finds, those after it
the buffer it leaves. -/
theorem execAll_slots_between {i : Instr} {s u : State} {m : Nat} (n : Nat) (harmed : s.armed = true)
    (hi : exec i (s.afterSlots m) = .next u) (hquiet : (s.afterSlots m).Presents u []) (hu : u.armed = true) :
    ∃ (t : State) (fs gs : List Frame),
      execAll (List.replicate m .slot ++ i :: List.replicate n .slot) s = .next t ∧
      s.Presents t (fs ++ gs) ∧ fs.length = m ∧ gs.length = n ∧
      (∀ f ∈ fs, f.mask = s.bufRead f.slot) ∧ ∀ f ∈ gs, f.mask = u.bufRead f.slot := by
  obtain ⟨fs, hbefore, hm, hold⟩ := State.afterSlots_presents harmed m
  obtain ⟨gs, hafter, hn, hnew⟩ := State.afterSlots_presents hu n
  refine ⟨u.afterSlots n, fs, gs, ?_, hbefore.append (hquiet.append hafter), hm, hn, hold, hnew⟩
  rw [execAll_slots, execAll_cons hi, execAll_replicate_slot]

theorem State.sameButEngine.frames_eq {s t : State} (h : s.sameButEngine t) : t.frames = s.frames := by
  unfold State.sameButEngine at h
  rw [h]

theorem State.sameButEngine.slot_eq {s t : State} (h : s.sameButEngine t) : t.slot = s.slot := by
  unfold State.sameButEngine at h
  rw [h]

theorem State.sameButEngine.armed_eq {s t : State} (h : s.sameButEngine t) : t.armed = s.armed := by
  unfold State.sameButEngine at h
  rw [h]

/-- SET with no pulse inside its column write presents nothing, writes its own column only, and leaves the output armed
(R38, R80). -/
theorem exec_set_between_slots {index : Byte} {c : Channel} {s : State} (level : LevelOperand)
    (hinited : s.inited = true) (hbetween : s.between = []) (hc : index.toNat = c.val)
    (hcolumn : s.columnShows c (lookup (s.diode c).cur)) :
    ∃ u : State, exec (.set index level) s = .next u ∧ s.Presents u [] ∧ u.armed = s.armed ∧
      u.columnShows c (lookup (clampLevel level.toInt)) ∧ s.otherColumnsKept u c := by
  have hframe : s.sameButEngine (s.setLevel c level.toInt) := (s.setLevel_frame c level.toInt).2 hbetween
  exact ⟨_, exec_set level hinited hc, .nil hframe.frames_eq hframe.slot_eq, hframe.armed_eq,
    s.columnShows_setLevel c _ hcolumn, s.otherColumnsKept_setLevel c _⟩

/-- Settles O30: SET presents nothing, and changes the column of its channel only. -/
theorem mixedCycleShowsOldThenNew : Obligations.MixedCycleShowsOldThenNew := by
  intro index level s c k hinv harmed hslot hbetween hc hk
  have hok := hinv.channelOk harmed
  obtain ⟨⟨hinited, _⟩, _⟩ := hinv
  have hkept := s.afterSlots_sameButPulses k
  obtain ⟨u, hset, hquiet, harmed', hnewColumn, hothers⟩ := exec_set_between_slots level
    (hkept.inited_eq.trans (hinited harmed)) ((s.afterSlots_between k).trans hbetween) hc
    ((hkept.channelKept c).channelOk (hok c)).2
  obtain ⟨t, fs, gs, hrun, hpresents, hm, hn, hold, hnew⟩ :=
    execAll_slots_between (63 - k) harmed hset hquiet (harmed'.trans (hkept.armed_eq.trans harmed))
  have hlen : (fs ++ gs).length = 63 := by rw [List.length_append, hm, hn, Nat.add_sub_of_le hk]
  refine ⟨t, clampLevel level.toInt, fs ++ gs, clampLevel_toNat _, hrun, hpresents.slot_eq_zero hslot hlen,
    hpresents.frames, hpresents.slots_eq_finRange hslot hlen, fun f hf => ?_⟩
  obtain hf | hf := List.mem_append.mp hf
  case inl =>
    have hlt : f.slot.val < k := hm ▸ hpresents.slot_lt_of_mem hslot hlen hf
    rw [hold f hf]
    exact ⟨fun _ => (hok c).2 f.slot, fun hle => absurd hlt (Nat.not_lt.mpr hle), fun c' _ => (hok c').2 f.slot⟩
  case inr =>
    have hle : k ≤ f.slot.val := hm ▸ hpresents.le_slot_of_mem hslot hlen hf
    rw [hnew f hf]
    exact ⟨fun hlt => absurd hlt (Nat.not_lt.mpr hle), fun _ => hnewColumn f.slot,
      fun c' hne => (hothers c' hne f.slot).trans (((hkept.channelKept c').2 f.slot).trans ((hok c').2 f.slot))⟩

end Sys2Proof.Machine
end

section
/-! Words with a reserved opcode, and the wire packets (44_wire_commands.md) that write no channel by themselves: the
velocity conversions, WGET, the device-level packets, and the animator's packets. -/

namespace Sys2Proof.Machine

variable (s : State)

/-! ### Words with a reserved opcode (R125, R162) -/

/-- The step that takes a word the decoder rejects does nothing but reject it, its client noted. -/
theorem step_of_reject {s : State} {client : Nat} {p : PortWord} {e : DecodeError} {xs : List Input}
    (hturn : s.nextTurn = some .input) (hin : s.inputs = .word client p :: xs) (hdecode : decode p = .reject e) :
    step s = .next ({ s with inputs := xs, turns := s.turns.tail, issuer := client }.rejectWord e) := by
  rw [step_of_input hturn hin]
  simp [State.accept, hdecode]

/-- Settles O7: the decoder rejects the word by the opcode it has, on either port. -/
theorem reservedWordIsANoOpWithBadOpcode : Obligations.ReservedWordIsANoOpWithBadOpcode := by
  intro s client p op xs hturn hin hreserved
  obtain ⟨w, rfl, rfl, hop⟩ | ⟨w, rfl, rfl, hop⟩ := hreserved
  case inl => exact step_of_reject hturn hin (decodeNative_of_reserved hop)
  case inr => exact step_of_reject hturn hin (decodeWire_of_reserved hop)

/-! ### The velocity conversions (R121, R122, R123) -/

/-- The clamp of a level that is not negative. -/
theorem clampLevel_natCast_toNat (n : Nat) : (clampLevel (n : Int)).toNat = min n 63 := by
  have h := clampLevel_toNat (n : Int)
  omega

/-- A velocity fits a byte (R122). -/
theorem levelToVel_toNat (n : Level) : (levelToVel n).toNat = n.toNat * 127 / 63 := by
  have h : n.toNat < 64 := n.isLt
  rw [levelToVel, BitVec.toNat_ofNat]
  omega

/-- The velocity of a level below the top one is twice the level, and half of it is rounded down on the way back. -/
theorem velToLevel_levelToVel {n : Level} (h0 : n ≠ 0#6) (h63 : n ≠ 63#6) :
    velToLevel (levelToVel n) = n.toNat - 1 := by
  have h : n.toNat < 64 := n.isLt
  have hlo : n.toNat ≠ 0 := fun e => h0 (BitVec.eq_of_toNat_eq e)
  have hhi : n.toNat ≠ 63 := fun e => h63 (BitVec.eq_of_toNat_eq e)
  rw [velToLevel, levelToVel_toNat]
  omega

/-- A velocity comes back only if neither division has a remainder: 127 divides `63 * vel` at the ends alone. -/
theorem levelToVel_velToLevel_iff {vel : Byte} (h : vel.toNat ≤ 127) :
    levelToVel (clampLevel (velToLevel vel)) = vel ↔ (vel = 0#8 ∨ vel = 127#8) := by
  simp only [BitVec.toNat_eq, levelToVel_toNat, clampLevel_natCast_toNat, velToLevel, BitVec.toNat_ofNat]
  omega

/-- Settles O33. -/
theorem velocityConversionsLoseOneLevel : Obligations.VelocityConversionsLoseOneLevel := by
  refine ⟨fun vel => rfl, fun vel h => ?low, fun vel h => ?high, fun n => ⟨levelToVel_toNat n, ?velocity⟩,
    fun vel => levelToVel_velToLevel_iff, fun n => velToLevel_levelToVel, by decide, by decide⟩
  case low =>
    rw [velToLevel]
    omega
  case high =>
    have hvel : vel.toNat < 256 := vel.isLt
    have hlevel : 63 ≤ velToLevel vel ∧ velToLevel vel ≤ 126 := by
      rw [velToLevel]
      omega
    refine ⟨hlevel.1, hlevel.2, BitVec.eq_of_toNat_eq ?_⟩
    rw [clampLevel_natCast_toNat]
    exact min_eq_right hlevel.1
  case velocity =>
    have h : n.toNat < 64 := n.isLt
    rw [levelToVel_toNat]
    omega

/-! ### WGET, WVER and WBOOT (R129, R133, R134) -/

section
variable {s : State} {channel : Byte}

/-- A refused WGET answers with velocity 0, that of `DEFAULT_LEVEL` (R161). -/
theorem exec_wget_of_error {e : LogEntry} (h : s.checkChannel .wget channel = .error e) :
    exec (.wget channel) s = .next ((s.respond 0x82#8 channel 0#8 0#8).raise .wget e) := by
  have hzero : levelToVel Config.defaultLevel = 0#8 := by decide
  simp [exec, execWget, State.getChecked, h, hzero]

theorem exec_wget {c : Channel} (hi : s.inited = true) (hc : channel.toNat = c.val) :
    exec (.wget channel) s =
      .next ((s.respond 0x82#8 channel (levelToVel (s.diode c).cur) 0#8).succeed .wget) := by
  simp [exec, execWget, State.getChecked, State.checkChannel_of_channel .wget hi hc]

end

/-- Settles O37: the check has the three outcomes of the statement. -/
theorem wgetRespondsInEveryCase : Obligations.WgetRespondsInEveryCase := fun channel _ =>
  ⟨fun hi => exec_wget_of_error (State.checkChannel_of_uninitialised .wget channel hi),
    fun hi h => exec_wget_of_error (State.checkChannel_of_badIndex .wget hi h),
    fun _ hi hc => ⟨_, levelToVel_toNat _, exec_wget hi hc⟩⟩

/-- Settles O38: the response is the version, byte by byte. -/
theorem wverRespondsWithTheVersion : Obligations.WverRespondsWithTheVersion := fun _ => rfl

/-- A reset keeps the error log or clears it (R27). -/
theorem State.hardwareReset_errorLog : s.hardwareReset.errorLog = s.errorLog ∨ s.hardwareReset.errorLog = [] := by
  unfold State.hardwareReset
  cases Config.resetClearsLog s.boots
  · exact .inl rfl
  · exact .inr rfl

/-- Settles O39: every field but the error log is one that the reset sets or leaves. -/
theorem wbootResetsTheBlock : Obligations.WbootResetsTheBlock := fun s =>
  ⟨s.hardwareReset.succeed .wboot, rfl, rfl, rfl, rfl, rfl, rfl, rfl, rfl, rfl, rfl, rfl, rfl, rfl, rfl, rfl, rfl,
    s.hardwareReset_errorLog⟩

/-! ### WPLAY and WSTOP (R131, R132, R141, R143) -/

/-- The clamp of a duration, the lower bound being the stronger one (R141). -/
theorem clampDuration_eq (x : Rat) :
    clampDuration x = max Config.minDuration (min x Config.maxDuration) := by
  have hbounds := Config.minDuration_le_maxDuration
  obtain ⟨hlo, e⟩ | ⟨hhi, e⟩ | ⟨hlo, hhi, e⟩ := clampDuration_cases x <;> rw [e]
  · rw [min_eq_left (hlo.le.trans hbounds), max_eq_left hlo.le]
  · rw [min_eq_right hhi.le, max_eq_right hbounds]
  · rw [min_eq_left hhi, max_eq_right hlo]

/-- A `play` with both ids known passes its checks (R141). -/
theorem State.playChecked_of_known {id fid : Byte} {a : Animation} {f : FollowAction} (ds : Byte)
    (ha : Config.animationOf id = some a) (hf : Config.followOf fid = some f) :
    s.playChecked id ds fid = .ok { s with animator := ⟨a, clampDuration (deciseconds ds), f, 0, true⟩ } := by
  simp [State.playChecked, ha, hf]

/-- Settles O41: both ids are known, and the clamp of the deciseconds is the stated one. -/
theorem wplayStartsTheAnimation : Obligations.WplayStartsTheAnimation := by
  refine ⟨Config.minDuration_le_maxDuration, fun id ds fid s a f ha hf => ?_⟩
  rw [← deciseconds, ← clampDuration_eq, exec, execWplay, State.playChecked_of_known s ds ha hf]
  rfl

/-- WSTOP: the fields, the SETs of the terminal effect, and then its status (R143). -/
theorem exec_wstop :
    exec .wstop s = .next
      ((s.stopFields.issueFrame (terminalFrame s.animator.current s.animator.follow)).succeed .wstop) := rfl

/-- The SETs of a frame given channel by channel are the SET commands of a client, in the same order (R145). -/
theorem execAll_frame_of_levels (level : Channel → LevelOperand) :
    execAll ((List.finRange 24).map fun c => Instr.set (BitVec.ofNat 8 c.val) (level c)) s =
      .next (s.issueFrame ((List.finRange 24).map fun c => (c, level c))) := by
  have h := execAll_frame ((List.finRange 24).map fun c => (c, level c)) s
  rwa [List.map_map] at h

/-- Settles O43, by the follow action: its terminal frame is empty, or one level for every channel. -/
theorem wstopStopsTheAnimation : Obligations.WstopStopsTheAnimation := by
  intro s
  refine ⟨fun h => ?nothing, fun h => ⟨_, execAll_frame_of_levels _ _, ?off⟩,
    fun h => ⟨_, execAll_frame_of_levels _ _, ?lastFrame⟩⟩
  case nothing =>
    rw [exec_wstop]
    obtain h | h := h <;> rw [h] <;> rfl
  case off =>
    rw [exec_wstop, h]
    rfl
  case lastFrame =>
    rw [exec_wstop, h]
    rfl

end Sys2Proof.Machine
end

section
/-! The velocity packets WSET and WSETALL (44_wire_commands.md R126, R127, R128): one channel's request, one step of
packet 0x81, and the 24 steps of the whole packet. -/

namespace Sys2Proof.Machine

variable (s : State)

/-! ### A request beside other notes (R126) -/

/-- No SET looks at what is remembered, in progress, returned or next to move. -/
theorem State.setLevel_withReports (st : Vector Level 24) (ps : List SetAll) (rs : List Return) (ts : List Turn)
    (c : Channel) (level : Int) :
    (s.withReports st ps rs ts).setLevel c level = (s.setLevel c level).withReports st ps rs ts := by
  let u := s.setTick c (s.diode c).dur
  show (u.withReports st ps rs ts).applyIfChanged c (clampLevel level) = _
  unfold State.setLevel State.applyIfChanged
  show (if clampLevel level = (u.diode c).cur then _ else _) = _
  split
  · rfl
  · exact u.applyWith_withReports st ps rs ts _ c _

theorem State.requestLevel_of_suppressed {suppressed : Bool} (h : suppressed = true) (c : Channel) (level : Nat) :
    s.requestLevel c level suppressed = s.setStored c (clampLevel level) :=
  if_pos h

theorem State.requestLevel_of_not_suppressed {suppressed : Bool} (h : suppressed = false) (c : Channel) (level : Nat) :
    s.requestLevel c level suppressed = (s.setStored c (clampLevel level)).setLevel c level :=
  if_neg (by simp [h])

/-- All that SET writes after its checks, and what it leaves (R84). -/
theorem State.setLevel_writes (c : Channel) (level : Int) :
    (s.setLevel c level).diode c = { s.diode c with cur := clampLevel level, tick := (s.diode c).dur } ∧
    (clampLevel level ≠ (s.diode c).cur → (s.setLevel c level).columnShows c (lookup (clampLevel level))) ∧
    (clampLevel level = (s.diode c).cur → s.columnKept (s.setLevel c level) c) ∧
    s.otherDiodesKept (s.setLevel c level) c ∧ s.otherColumnsKept (s.setLevel c level) c ∧
    s.sameButColumnWrite (s.setLevel c level) ∧
    s.becomesByApply (s.setLevel c level) c { s.diode c with tick := (s.diode c).dur } (clampLevel level) :=
  ⟨by rw [State.diode_setLevel, if_pos rfl], s.columnShows_setLevel_of_ne c level, s.columnKept_setLevel c level,
    fun _ h => (s.channelKept_setLevel h level).1, s.otherColumnsKept_setLevel c level, s.setLevel_frame c level,
    s.setLevel_becomes c level⟩

/-- A request writes `stored`, and what SET writes. -/
theorem State.requestLevel_frame (c : Channel) (level : Nat) (suppressed : Bool) :
    (s.setStored c (clampLevel level)).sameButColumnWrite (s.requestLevel c level suppressed) := by
  cases suppressed
  · exact State.setLevel_frame _ c level
  · exact State.sameButColumnWrite_refl _

/-- Packets put in progress and statuses returned after a request could as well come before it. -/
theorem State.requestLevel_notes (ps : List SetAll) (rs : List Return) (c : Channel) (level : Nat)
    (suppressed : Bool) :
    { s with packets := ps, returns := rs }.requestLevel c level suppressed =
      { s.requestLevel c level suppressed with packets := ps, returns := rs } := by
  cases suppressed
  · have hreports := (s.setStored c (clampLevel level)).setLevel_withReports
      (s.stored.set c.val (clampLevel level)) ps rs s.turns c level
    refine hreports.trans ?_
    rw [State.requestLevel_of_not_suppressed _ rfl, ((s.setStored c (clampLevel level)).setLevel_frame c level).1]
    rfl
  · rfl

section
variable (c : Channel) (level : Nat) (suppressed : Bool)

theorem State.requestLevel_packets : (s.requestLevel c level suppressed).packets = s.packets := by
  rw [(s.requestLevel_frame c level suppressed).1, State.setStored_packets]

theorem State.requestLevel_returns : (s.requestLevel c level suppressed).returns = s.returns := by
  rw [(s.requestLevel_frame c level suppressed).1, State.setStored_returns]

theorem State.requestLevel_stored :
    (s.requestLevel c level suppressed).stored = s.stored.set c.val (clampLevel level) := by
  rw [(s.requestLevel_frame c level suppressed).1, State.setStored_stored]

theorem State.requestLevel_succeed (k : Command) :
    (s.succeed k).requestLevel c level suppressed = (s.requestLevel c level suppressed).succeed k := by
  have hnotes := s.requestLevel_notes s.packets (s.returns ++ [.status k .ok]) c level suppressed
  refine Eq.trans hnotes ?_
  rw [← s.requestLevel_packets c level suppressed, ← s.requestLevel_returns c level suppressed]
  rfl

theorem State.requestLevel_withPackets (ps : List SetAll) :
    { s with packets := ps }.requestLevel c level suppressed =
      { s.requestLevel c level suppressed with packets := ps } := by
  have hnotes := s.requestLevel_notes ps s.returns c level suppressed
  refine Eq.trans hnotes ?_
  rw [← s.requestLevel_returns c level suppressed]

end

/-! ### WSET (R127) -/

/-- WSET after its check: a request, its status noted beside it. -/
theorem exec_wset {s : State} {channel : Byte} {c : Channel} (velocity : Byte) (hi : s.inited = true)
    (hc : channel.toNat = c.val) :
    exec (.wset channel velocity) s =
      .next ((s.succeed .wset).requestLevel c (velToLevel velocity) s.animator.playing) := by
  simp [exec, execWset, State.checkChannel_of_channel .wset hi hc, State.requestLevel_succeed]

/-- Settles O34: the request of a playing animation is a note, any other is SET. -/
theorem wsetRemembersAndSets : Obligations.WsetRemembersAndSets := by
  intro channel velocity s c hi hc
  refine ⟨_, clampLevel (velToLevel velocity), exec_wset velocity hi hc, clampLevel_natCast_toNat _,
    fun hplaying => ?_, fun hquiet => ?_⟩
  · rw [State.requestLevel_of_suppressed _ hplaying]
    rfl
  · rw [State.requestLevel_of_not_suppressed _ hquiet]
    exact ((s.succeed .wset).setStored c (clampLevel (velToLevel velocity))).setLevel_writes c (velToLevel velocity)

/-! ### One step of packet 0x81 (R128, R40) -/

/-- A step that may set its channel, or need not, goes on or ends with OK (R128). -/
theorem State.setAllStep_of_allowed {s : State} {job : SetAll} (h : job.suppressed = false → s.inited = true) :
    s.setAllStep job =
      if job.next = 23 then ((s.requestLevel job.next job.level job.suppressed).succeed .wsetall, none)
      else (s.requestLevel job.next job.level job.suppressed, some { job with next := job.next + 1 }) := by
  refine if_pos ?_
  cases hsup : job.suppressed
  · simp [h hsup]
  · simp

/-- The state with a step of the `k`-th packet noted: the packet moved on, or ended with OK after its 24th step. -/
def State.notePacketStep (s : State) (k : Nat) (job : SetAll) : State :=
  { s with
    packets := if job.next = 23 then s.packets.eraseIdx k else s.packets.set k { job with next := job.next + 1 }
    returns := s.returns ++ (if job.next = 23 then [.status .wsetall .ok] else []) }

/-- A later step of packet 0x81 is the request of its channel. -/
theorem State.packetAdvance_of_allowed {s : State} {k : Nat} {job : SetAll} (hk : s.packets[k]? = some job)
    (h : job.suppressed = false → s.inited = true) :
    s.packetAdvance k = (s.notePacketStep k job).requestLevel job.next job.level job.suppressed := by
  have hnotes := s.requestLevel_notes (s.notePacketStep k job).packets (s.notePacketStep k job).returns job.next
    job.level job.suppressed
  refine Eq.trans ?_ hnotes.symm
  by_cases hlast : job.next = 23 <;>
    simp [State.packetAdvance, hk, State.setAllStep_of_allowed h, State.notePacketStep, hlast, State.succeed, State.ret,
      State.requestLevel_returns]

/-- In a block that is not initialised the SET is refused, and the packet ends with that failure (log entry 17). -/
theorem State.packetAdvance_of_refused {s : State} {k : Nat} {job : SetAll} (hk : s.packets[k]? = some job)
    (hi : s.inited = false) (hsup : job.suppressed = false) :
    s.packetAdvance k =
      { (s.setStored job.next (clampLevel job.level)).raise .wsetall (.notInitialised .wsetall) with
        packets := s.packets.eraseIdx k } := by
  simp [State.packetAdvance, hk, State.setAllStep, hi, hsup]

/-- The step of a packet in progress (R41). -/
theorem step_of_packet {s : State} {k : Nat} (h : s.nextTurn = some (.packet k)) :
    step s = .next ({ s with turns := s.turns.tail }.packetAdvance k) := by
  simp [step, State.stepWith, State.runTurn, h]

/-- Settles O60, by the sample and, where it does not suppress, by whether the block is initialised. -/
theorem packetStepGoesByItsSample : Obligations.PacketStepGoesByItsSample := by
  intro s k job hturn hk
  refine ⟨_, _, clampLevel job.level, step_of_packet hturn, clampLevel_natCast_toNat _, rfl, fun hsup => ?suppressed,
    fun hsup hi => ?set, fun hsup hi => ?refused⟩
  case suppressed =>
    rw [State.packetAdvance_of_allowed (s := { s with turns := s.turns.tail }) hk (fun h => by simp [hsup] at h),
      State.requestLevel_of_suppressed _ hsup]
    rfl
  case set =>
    rw [State.packetAdvance_of_allowed (s := { s with turns := s.turns.tail }) hk (fun _ => hi),
      State.requestLevel_of_not_suppressed _ hsup]
    obtain ⟨hdiode, hshows, -, hdiodes, hcolumns, -, hbecomes⟩ :=
      (({ s with turns := s.turns.tail }.notePacketStep k job).setStored job.next
        (clampLevel job.level)).setLevel_writes job.next job.level
    exact ⟨hbecomes, hdiode, hshows, hdiodes, hcolumns⟩
  case refused =>
    exact State.packetAdvance_of_refused hk hi hsup

/-! ### WSETALL's first step (R128, R40) -/

/-- What WSETALL leaves in progress: channel 1 next, the converted level, the sample, and the client that waits. -/
def State.wsetallJob (s : State) (velocity : Byte) : SetAll :=
  ⟨1, velToLevel velocity, s.animator.playing, s.issuer⟩

/-- WSETALL requests channel 0 and puts itself in progress. -/
theorem exec_wsetall {s : State} (velocity : Byte) (hi : s.inited = true) :
    exec (.wsetall velocity) s =
      .next ({ s with packets := s.packets ++ [s.wsetallJob velocity] }.requestLevel 0 (velToLevel velocity)
        s.animator.playing) := by
  rw [State.requestLevel_withPackets]
  simp [exec, execWsetall, hi, State.setAllStep_of_allowed, State.requestLevel_packets, State.wsetallJob]

/-- Settles O35: as a single WSET of channel 0, with the packet noted beside it. -/
theorem wsetallTakesItsFirstStep : Obligations.WsetallTakesItsFirstStep := by
  intro velocity s hi
  have hstored := State.requestLevel_stored
    { s with packets := s.packets ++ [s.wsetallJob velocity] } 0 (velToLevel velocity) s.animator.playing
  refine ⟨_, clampLevel (velToLevel velocity), exec_wsetall velocity hi, clampLevel_natCast_toNat _, hstored,
    State.requestLevel_packets _ _ _ _, State.requestLevel_returns _ _ _ _, fun hplaying => ?_, fun hquiet => ?_⟩
  · rw [State.requestLevel_of_suppressed _ hplaying]
    rfl
  · rw [hstored, State.requestLevel_packets, State.requestLevel_of_not_suppressed _ hquiet]
    exact ({ s with packets := s.packets ++ [s.wsetallJob velocity] }.setStored 0
      (clampLevel (velToLevel velocity))).setLevel_writes 0 (velToLevel velocity)

/-! ### The requests of several channels, one after another (R128) -/

/-- The same level requested for each channel of a list. -/
def State.requestAll (level : Nat) (suppressed : Bool) (s : State) (cs : List Channel) : State :=
  cs.foldl (fun s c => s.requestLevel c level suppressed) s

section
variable (level : Nat) (suppressed : Bool)

theorem State.requestAll_cons (c : Channel) (cs : List Channel) :
    s.requestAll level suppressed (c :: cs) = (s.requestLevel c level suppressed).requestAll level suppressed cs := rfl

theorem State.requestAll_append (cs cs' : List Channel) :
    s.requestAll level suppressed (cs ++ cs') =
      (s.requestAll level suppressed cs).requestAll level suppressed cs' := List.foldl_append

/-- Record, column and remembered level of channel `c` stand as they stood. -/
def State.channelAndStoredKept (s t : State) (c : Channel) : Prop :=
  s.channelKept t c ∧ t.stored[c.val] = s.stored[c.val]

theorem State.channelAndStoredKept_requestAll (cs : List Channel) (s : State) {c : Channel} (h : c ∉ cs) :
    s.channelAndStoredKept (s.requestAll level suppressed cs) c := by
  induction cs generalizing s with
  | nil => exact ⟨s.channelKept_refl c, rfl⟩
  | cons a cs ih =>
    obtain ⟨hne, hmem⟩ := not_or.mp (List.mem_cons.not.mp h)
    obtain ⟨⟨hdiode, hcolumn⟩, hstored⟩ := ih (s.requestLevel a level suppressed) hmem
    obtain ⟨hdiode', hcolumn'⟩ := s.channelKept_requestLevel hne level suppressed
    have hstored' : (s.requestLevel a level suppressed).stored[c.val] = s.stored[c.val] := by
      simp [State.requestLevel_stored, Fin.val_ne_of_ne (Ne.symm hne)]
    exact ⟨⟨hdiode.trans hdiode', fun j => (hcolumn j).trans (hcolumn' j)⟩, hstored.trans hstored'⟩

/-- With nothing falling between the requests or inside them, they write records, columns and `stored` only. -/
theorem State.requestLevel_of_between_nil {s : State} (c : Channel) (hb : s.between = []) :
    s.requestLevel c level suppressed =
      { s with
        diodes := (s.requestLevel c level suppressed).diodes, masks := (s.requestLevel c level suppressed).masks
        stored := (s.requestLevel c level suppressed).stored } := by
  have hengine := (s.requestLevel_frame c level suppressed).2 hb
  rw [s.requestLevel_stored]
  exact hengine

theorem State.requestAll_of_between_nil (cs : List Channel) {s : State} (hb : s.between = []) :
    s.requestAll level suppressed cs =
      { s with
        diodes := (s.requestAll level suppressed cs).diodes, masks := (s.requestAll level suppressed cs).masks
        stored := (s.requestAll level suppressed cs).stored } := by
  induction cs generalizing s with
  | nil => rfl
  | cons c cs ih =>
    have hone := s.requestLevel_of_between_nil level suppressed c hb
    have hb' : (s.requestLevel c level suppressed).between = [] := by rw [hone]; exact hb
    rw [State.requestAll_cons, ih hb', hone]

/-- Suppressed requests write `stored` only (R126). -/
theorem State.requestAll_suppressed (cs : List Channel) (s : State) :
    s.requestAll level true cs = { s with stored := (s.requestAll level true cs).stored } := by
  induction cs generalizing s with
  | nil => rfl
  | cons c cs ih => exact ih (s.setStored c (clampLevel level))

/-- A channel of the list is requested once; the requests before and after it leave it alone. -/
theorem State.requestAll_at {cs : List Channel} (hcs : cs.Nodup) {c : Channel} (hc : c ∈ cs) :
    ∃ u : State, s.channelAndStoredKept u c ∧
      (u.requestLevel c level suppressed).channelAndStoredKept (s.requestAll level suppressed cs) c := by
  obtain ⟨before, after, rfl⟩ := List.append_of_mem hc
  obtain ⟨hothers, _⟩ := List.nodup_cons.mp (List.nodup_middle.mp hcs)
  obtain ⟨hbefore, hafter⟩ := not_or.mp (List.mem_append.not.mp hothers)
  refine ⟨s.requestAll level suppressed before, State.channelAndStoredKept_requestAll _ _ _ _ hbefore, ?_⟩
  rw [State.requestAll_append, State.requestAll_cons]
  exact State.channelAndStoredKept_requestAll _ _ _ _ hafter

theorem State.stored_requestAll {cs : List Channel} (hcs : cs.Nodup) {c : Channel} (hc : c ∈ cs) :
    (s.requestAll level suppressed cs).stored[c.val] = clampLevel level := by
  obtain ⟨u, _, _, hstored⟩ := s.requestAll_at level suppressed hcs hc
  rw [hstored]
  simp [State.requestLevel_stored]

/-- A channel of the list has the level when all are requested and no animation plays (R128). -/
theorem State.channel_requestAll {cs : List Channel} (hcs : cs.Nodup) {c : Channel} (hc : c ∈ cs) :
    (s.requestAll level false cs).diode c =
      { s.diode c with cur := clampLevel level, tick := (s.diode c).dur } ∧
    (clampLevel level ≠ (s.diode c).cur →
      (s.requestAll level false cs).columnShows c (lookup (clampLevel level))) ∧
    (clampLevel level = (s.diode c).cur → s.columnKept (s.requestAll level false cs) c) := by
  obtain ⟨u, ⟨⟨hbefore, hcolumn⟩, _⟩, ⟨⟨hafter, hcolumn'⟩, _⟩⟩ := s.requestAll_at level false hcs hc
  obtain ⟨hdiode, hshows, hkept, _⟩ := (u.setStored c (clampLevel level)).setLevel_writes c level
  rw [State.diode_setStored, hbefore] at hdiode hshows hkept
  exact ⟨hafter.trans hdiode, fun hne j => (hcolumn' j).trans (hshows hne j),
    fun heq j => (hcolumn' j).trans ((hkept heq j).trans (hcolumn j))⟩

end

/-! ### The 24 steps of packet 0x81 (R128, R40) -/

theorem stepTimes_succ {s t : State} (k : Nat) (h : step s = .next t) : stepTimes (k + 1) s = stepTimes k t := by
  simp [stepTimes, h]

/-- With nobody to choose and no tick held, the one packet is next, and its step requests its channel. -/
theorem step_of_only_packet {s : State} {job : SetAll} (hturns : s.turns = []) (hticks : s.pendingTicks = 0)
    (hjob : s.packets = [job]) (hi : job.suppressed = false → s.inited = true) :
    step s = .next ((s.notePacketStep 0 job).requestLevel job.next job.level job.suppressed) := by
  have htail : s.turns.tail = s.turns := by simp [hturns]
  rw [step_of_packet (State.nextTurn_of_packet hturns hticks hjob), htail,
    State.packetAdvance_of_allowed (s := s) (by simp [hjob]) hi]

section
variable {s : State} {job : SetAll} (hs : s.undisturbed) (hi : job.suppressed = false → s.inited = true)
include hs hi

/-- A step before the 24th leaves the next channel to do. -/
theorem step_of_inner_packet (hne : job.next ≠ 23) :
    step { s with packets := [job] } =
      .next { s.requestLevel job.next job.level job.suppressed with
        packets := [{ job with next := job.next + 1 }] } := by
  obtain ⟨hturns, hticks, _⟩ := hs
  rw [step_of_only_packet (s := { s with packets := [job] }) hturns hticks rfl hi, ← State.requestLevel_withPackets]
  simp [State.notePacketStep, hne]

/-- The 24th step ends the packet with OK. -/
theorem step_of_last_packet (hlast : job.next = 23) :
    step { s with packets := [job] } =
      .next ((s.requestLevel job.next job.level job.suppressed).succeed .wsetall) := by
  obtain ⟨hturns, hticks, hpackets, _⟩ := hs
  rw [step_of_only_packet (s := { s with packets := [job] }) hturns hticks rfl hi, ← State.requestLevel_succeed]
  simp [State.notePacketStep, hlast, State.succeed, State.ret, hpackets]

end

/-- A request leaves what is undisturbed undisturbed, and the block initialised. -/
theorem State.undisturbed_requestLevel {s : State} (c : Channel) (level : Nat) (suppressed : Bool)
    (h : s.undisturbed) :
    (s.requestLevel c level suppressed).undisturbed ∧ (s.requestLevel c level suppressed).inited = s.inited := by
  obtain ⟨hturns, hticks, hpackets, hwork, hbetween⟩ := h
  rw [s.requestLevel_of_between_nil level suppressed c hbetween]
  exact ⟨⟨hturns, hticks, hpackets, hwork, hbetween⟩, rfl⟩

/-- The channels from `c` on, in ascending order. -/
theorem drop_finRange (c : Channel) :
    (List.finRange 24).drop c.val = c :: (List.finRange 24).drop (c.val + 1) := by
  rw [List.drop_eq_getElem_cons (by simp), List.getElem_finRange]
  rfl

/-- A packet requests its channel and all that follow, a step each, and ends with OK. -/
theorem stepTimes_packet (n : Nat) {s : State} {job : SetAll} (hn : job.next.val + n = 23) (hs : s.undisturbed)
    (hi : job.suppressed = false → s.inited = true) :
    stepTimes (n + 1) { s with packets := [job] } =
      .next ((s.requestAll job.level job.suppressed ((List.finRange 24).drop job.next.val)).succeed .wsetall) := by
  induction n generalizing s job with
  | zero =>
    have hlast : job.next = 23 := Fin.ext hn
    rw [stepTimes_succ 0 (step_of_last_packet hs hi hlast), hlast]
    rfl
  | succ n ih =>
    have hne : job.next ≠ 23 := fun e => by simp [e] at hn
    have hnext : (job.next + 1).val = job.next.val + 1 := by
      rw [Fin.val_add]
      exact Nat.mod_eq_of_lt (by omega)
    have hn' : (job.next + 1).val + n = 23 := by omega
    obtain ⟨hs', hi'⟩ := State.undisturbed_requestLevel job.next job.level job.suppressed hs
    rw [stepTimes_succ _ (step_of_inner_packet hs hi hne), drop_finRange, State.requestAll_cons, ← hnext]
    exact ih (job := { job with next := job.next + 1 }) hn' hs' fun h => hi'.trans (hi h)

/-- WSETALL and the 23 steps that follow it, with nothing else in progress: all 24 channels requested, then OK. -/
theorem exec_wsetall_stepTimes {s : State} (velocity : Byte) (hi : s.inited = true) (hs : s.undisturbed) :
    ∃ t : State, exec (.wsetall velocity) s = .next t ∧
      stepTimes 23 t = .next
        ((s.requestAll (velToLevel velocity) s.animator.playing (List.finRange 24)).succeed .wsetall) := by
  obtain ⟨hs', hi'⟩ := State.undisturbed_requestLevel 0 (velToLevel velocity) s.animator.playing hs
  obtain ⟨_, _, hpackets, _⟩ := hs
  have hrest := stepTimes_packet 22 (job := s.wsetallJob velocity) rfl hs' fun _ => hi'.trans hi
  refine ⟨_, exec_wsetall velocity hi, ?_⟩
  rw [State.requestLevel_withPackets, hpackets]
  exact hrest

/-- Settles O36: what the whole packet requests, read channel by channel. -/
theorem wsetallSetsEveryChannelIn24Steps : Obligations.WsetallSetsEveryChannelIn24Steps := by
  intro velocity s hi hs
  obtain ⟨t, hfirst, hrest⟩ := exec_wsetall_stepTimes velocity hi hs
  obtain ⟨_, _, _, _, hbetween⟩ := hs
  refine ⟨t, _, clampLevel (velToLevel velocity), hfirst, hrest, clampLevel_natCast_toNat _,
    fun c => s.stored_requestAll _ _ (List.nodup_finRange 24) (List.mem_finRange c), fun hplaying => ?_,
    fun hquiet => ⟨fun c => ?_, ?_⟩⟩
  · rw [hplaying, s.requestAll_suppressed]
    rfl
  · rw [hquiet]
    have hchannel := s.channel_requestAll (velToLevel velocity) (List.nodup_finRange 24) (List.mem_finRange c)
    generalize s.requestAll (velToLevel velocity) false (List.finRange 24) = u at hchannel ⊢
    exact hchannel
  · rw [State.requestAll_of_between_nil _ _ _ hbetween]
    rfl

end Sys2Proof.Machine
end

section
/-! The animator and its packets (45_animator_client.md R140 to R148): what the effects light, what WPLAY refuses, and what
waits for an `update`. -/

namespace Sys2Proof.Machine

variable (s : State)

/-! ### The effects (R147, R148) -/

/-- The floor that the model computes is Mathlib's. -/
theorem rat_floor_eq {x : Rat} {n : Int} (hlo : (n : Rat) ≤ x) (hhi : x < n + 1) : x.floor = n :=
  (Int.floor_eq_iff (a := x)).mpr ⟨hlo, hhi⟩

/-- At progress 1 Flip names channel 24, which does not exist (log entry 15). -/
theorem flipLevel_one (c : Channel) : flipLevel 1 c = 0#32 := by
  have hfloor : ((1 : Rat) * 24).floor = 24 := rat_floor_eq (by norm_num) (by norm_num)
  have hc := c.isLt
  rw [flipLevel, hfloor, if_neg (by omega)]

/-- Settles O49: the level is decided by one comparison of channel numbers. -/
theorem effectsLightOneChannel : Obligations.EffectsLightOneChannel := by
  refine ⟨fun c k p hlo hhi => ?flip, flipLevel_one, fun c p h => ?firstHalf, fun c p h => ?secondHalf⟩
  case flip =>
    have hfloor : (p * 24).floor = (k.val : Int) := rat_floor_eq (by exact_mod_cast hlo) (by exact_mod_cast hhi)
    rw [effectLevel, flipLevel, hfloor]
    simp [Fin.ext_iff, eq_comm]
  case firstHalf =>
    rw [effectLevel, splitLevel, if_pos h]
    simp [Fin.ext_iff]
  case secondHalf =>
    rw [effectLevel, splitLevel, if_neg h.not_gt]
    simp [Fin.ext_iff]

/-! ### WPLAY with an unknown id (R141, R164) -/

/-- A `play` that its checks refuse is raised in the state before it. -/
theorem exec_wplay_of_error {s : State} {id ds fid : Byte} {e : LogEntry} (h : s.playChecked id ds fid = .error e) :
    exec (.wplay id ds fid) s = .next (s.raise .wplay e) := by
  rw [exec, execWplay, h, State.conclude_error]

/-- Settles O42, by the outcome of the two lookups. -/
theorem wplayRefusesUnknownIds : Obligations.WplayRefusesUnknownIds := by
  refine ⟨fun id ds fid s hid => exec_wplay_of_error ?badAnimation,
    fun id ds fid s a hid hfollow => exec_wplay_of_error ?badFollow, rfl, Config.animationZero, rfl⟩
  case badAnimation => rw [State.playChecked, hid]
  case badFollow => simp only [State.playChecked, hid, hfollow]

/-! ### What waits for an `update` in progress (93 U17) -/

/-- The animator's packets come on the wire port: no native word decodes to one (R52, R56). -/
theorem wire_of_callsAnimator {p : PortWord} (h : callsAnimator (decode p) = true) : ∃ w, p = .wire w := by
  cases p with
  | wire w => exact ⟨w, rfl⟩
  | native w =>
    have hnative : callsAnimator (decodeNative w) = false := by
      unfold decodeNative
      split_ifs <;> rfl
    exact absurd h (by simp [decode, hnative])
  | fadeTick => cases h
  | slotTick => cases h
  | tableAddress n => cases h

/-- A packet that calls the animator is not taken while an `update` is in progress. -/
theorem State.mayTake_eq_false_of_callsAnimator {s : State} (hwork : s.animWork ≠ []) {p : PortWord}
    (hcalls : callsAnimator (decode p) = true) (client : Nat) : s.mayTake (.word client p) = false := by
  obtain ⟨w, rfl⟩ := wire_of_callsAnimator hcalls
  simp [State.mayTake, hcalls, hwork]

theorem State.animWork_nil_of_mayTake_update {s : State} {dt : Rat} (h : s.mayTake (.update dt) = true) :
    s.animWork = [] := by
  simpa [State.mayTake] using h

/-- Settles O44: an arrival that moves may be taken, which the work in progress rules out. -/
theorem busyAnimatorMakesPacketsWait : Obligations.BusyAnimatorMakesPacketsWait := by
  refine fun s xs hwork => ⟨fun client p hin hdecode hturn => ?packet, fun dt hin hturn => ?update⟩
  case packet =>
    have hcalls : callsAnimator (decode p) = true := by
      obtain h | ⟨id, ds, fid, h⟩ := hdecode <;> rw [h] <;> rfl
    have hmay := State.mayTake_of_nextTurn hin hturn
    rw [State.mayTake_eq_false_of_callsAnimator hwork hcalls] at hmay
    cases hmay
  case update => exact hwork (State.animWork_nil_of_mayTake_update (State.mayTake_of_nextTurn hin hturn))

end Sys2Proof.Machine
end

section
/-! The SETs of a frame (45_animator_client.md R145): what they write, StopOff's frame, and the rule that an animation
keeps the duration it was played with. -/

namespace Sys2Proof.Machine

variable (s : State)

/-! ### The SETs of a frame within one step -/

/-- `t` is `s` but for statuses, log entries and column writes: what SETs write. -/
def State.sameButSets (s t : State) : Prop :=
  { s with errorLog := t.errorLog, returns := t.returns }.sameButColumnWrite t

theorem State.sameButSets_refl : s.sameButSets s := State.sameButColumnWrite_refl _

theorem State.sameButSets_trans {s t u : State} (h : s.sameButSets t) (k : t.sameButSets u) : s.sameButSets u := by
  refine ⟨by rw [k.1, h.1], fun hb => ?_⟩
  have hengine := h.2 hb
  have kengine := k.2 (h.between_nil hb)
  unfold State.sameButEngine at *
  rw [kengine, hengine]

theorem State.sameButColumnWrite.errorLog_eq {s t : State} (h : s.sameButColumnWrite t) : t.errorLog = s.errorLog := by
  rw [h.1]

theorem State.sameButSets_setFromFrame (x : Channel × LevelOperand) : s.sameButSets (s.setFromFrame x) := by
  obtain ⟨_, h⟩ | ⟨_, h⟩ := s.setFromFrame_cases x <;> rw [h]
  · have hframe := s.setLevel_frame x.1 x.2.toInt
    unfold State.sameButSets
    rw [State.succeed_errorLog, State.succeed_returns, hframe.errorLog_eq, hframe.returns_eq]
    exact State.sameButColumnWrite_succeed .set hframe
  · exact ⟨rfl, fun _ => rfl⟩

theorem State.sameButSets_issueFrame (frame : List (Channel × LevelOperand)) : s.sameButSets (s.issueFrame frame) :=
  State.issueFrame_induction (P := s.sameButSets)
    (fun t x h => State.sameButSets_trans h (t.sameButSets_setFromFrame x)) frame s s.sameButSets_refl

theorem State.sameButSets.animator_eq {s t : State} (h : s.sameButSets t) : t.animator = s.animator := by
  rw [h.1]

theorem State.sameButSets.animWork_eq {s t : State} (h : s.sameButSets t) : t.animWork = s.animWork := by
  rw [h.1]

theorem State.sameButSets.inputs_eq {s t : State} (h : s.sameButSets t) : t.inputs = s.inputs := by
  rw [h.1]

theorem State.sameButSets.stored_eq {s t : State} (h : s.sameButSets t) : t.stored = s.stored := by
  rw [h.1]

theorem State.setFromFrame_of_inited {s : State} (hi : s.inited = true) (x : Channel × LevelOperand) :
    s.setFromFrame x = (s.setLevel x.1 x.2.toInt).succeed .set := by
  obtain ⟨_, h⟩ | ⟨hn, _⟩ := s.setFromFrame_cases x
  · exact h
  · simp [hi] at hn

/-- After INIT every SET of a frame is accepted: nothing is logged, and each returns OK (R83, R84). -/
theorem State.issueFrame_reports (frame : List (Channel × LevelOperand)) {s : State} (hi : s.inited = true) :
    (s.issueFrame frame).errorLog = s.errorLog ∧
    (s.issueFrame frame).returns = s.returns ++ List.replicate frame.length (.status .set .ok) := by
  induction frame generalizing s with
  | nil => simp [State.issueFrame]
  | cons x xs ih =>
    have hset := State.setFromFrame_of_inited hi x
    have hframe := s.setLevel_frame x.1 x.2.toInt
    obtain ⟨hlog, hreturns⟩ := ih (s := s.setFromFrame x) (by rw [hset]; exact hframe.inited_eq.trans hi)
    refine ⟨hlog.trans ?_, hreturns.trans ?_⟩
    · rw [hset, State.succeed_errorLog, hframe.errorLog_eq]
    · rw [hset, State.succeed_returns, hframe.returns_eq]
      simp [List.replicate_succ]

/-! ### StopOff's frame (R143) -/

/-- A diode at level 0 whose fade is over. -/
def Diode.dark (d : Diode) : Prop := d.cur = 0#6 ∧ d.idle = true

theorem clampLevel_zero : clampLevel (0#32).toInt = 0#6 := by decide

/-- A SET to level 0 darkens its channel, and none that is dark is lit by it (R84). -/
theorem State.dark_setFromFrame_zero {s : State} (hi : s.inited = true) {c a : Channel}
    (h : c = a ∨ (s.diode c).dark) : ((s.setFromFrame (a, 0#32)).diode c).dark := by
  rw [State.setFromFrame_of_inited hi, State.diode_succeed, State.diode_setLevel]
  split
  · exact ⟨clampLevel_zero, by simp [Diode.idle]⟩
  · next hne => exact h.resolve_left hne

/-- SETs to level 0 leave every channel dark that they name or that was dark. -/
theorem State.dark_issueFrame_zero (cs : List Channel) {s : State} (hi : s.inited = true) {c : Channel}
    (h : c ∈ cs ∨ (s.diode c).dark) : ((s.issueFrame (cs.map fun a => (a, 0#32))).diode c).dark := by
  induction cs generalizing s with
  | nil => exact h.resolve_left List.not_mem_nil
  | cons a cs ih =>
    have hinited : (s.setFromFrame (a, 0#32)).inited = true := by
      rw [(s.sameButSets_setFromFrame (a, 0#32)).inited_eq]
      exact hi
    refine ih hinited ?_
    rw [List.mem_cons, or_assoc, or_left_comm] at h
    exact h.imp_right (State.dark_setFromFrame_zero hi)

/-- The frame of StopOff leaves every channel dark. -/
theorem State.dark_stopOffFrame {s : State} (hi : s.inited = true) (a : Animation) (c : Channel) :
    ((s.issueFrame (terminalFrame a .stopOff)).diode c).dark :=
  State.dark_issueFrame_zero _ hi (.inl (List.mem_finRange c))

/-- Settles O45: the frame of StopOff in the stopped state, and then WSTOP's status. -/
theorem stopOffDarkensEveryChannel : Obligations.StopOffDarkensEveryChannel := by
  intro s hi hfollow
  have hdark := State.dark_stopOffFrame (s := s.stopFields) hi s.animator.current
  have hsets := s.stopFields.sameButSets_issueFrame (terminalFrame s.animator.current .stopOff)
  obtain ⟨hlog, hreturns⟩ := State.issueFrame_reports (s := s.stopFields)
    (terminalFrame s.animator.current .stopOff) hi
  have hlength : (terminalFrame s.animator.current .stopOff).length = 24 := rfl
  refine ⟨_, exec_wstop s, ?_⟩
  rw [hfollow]
  rw [hlength] at hreturns
  generalize s.stopFields.issueFrame (terminalFrame s.animator.current .stopOff) = u at hdark hsets hlog hreturns ⊢
  refine ⟨hdark, hsets.animator_eq, hsets.animWork_eq, hsets.stored_eq, hlog, ?_⟩
  rw [State.succeed_returns, hreturns, State.stopFields_returns]

/-! ### What writes the animator (R140, R141) -/

theorem State.animator_conclude {s : State} (k : Command) {r : Except LogEntry State}
    (h : ∀ t, r = .ok t → t.animator = s.animator) : (s.conclude k r).animator = s.animator := by
  cases r with
  | ok t => exact h t rfl
  | error e => rfl

theorem State.sameButColumnWrite.animator_eq {s t : State} (h : s.sameButColumnWrite t) : t.animator = s.animator := by
  rw [h.1]

theorem State.animator_requestLevel (c : Channel) (level : Nat) (suppressed : Bool) :
    (s.requestLevel c level suppressed).animator = s.animator :=
  (s.requestLevel_frame c level suppressed).animator_eq

theorem State.animator_setAllStep (job : SetAll) : (s.setAllStep job).1.animator = s.animator := by
  unfold State.setAllStep
  split
  · split <;> exact s.animator_requestLevel job.next job.level job.suppressed
  · rfl

theorem State.animator_packetAdvance (k : Nat) : (s.packetAdvance k).animator = s.animator := by
  unfold State.packetAdvance
  split
  next => rfl
  next job _ =>
    have hstep := s.animator_setAllStep job
    split <;> next e => rw [e] at hstep; exact hstep

theorem State.animator_slotStep : s.slotStep.animator = s.animator := by
  rw [s.slotStep_sameButPulses]

/-- The instructions that write the animator: its two packets, and the reset (R131, R132, R180). -/
def writesAnimator (i : Instr) : Prop := (∃ id ds fid, i = .wplay id ds fid) ∨ i = .wstop ∨ i = .wboot

/-- No other instruction writes the animator. -/
theorem exec_animator {i : Instr} (hi : ¬ writesAnimator i) {s t : State} (h : exec i s = .next t) :
    t.animator = s.animator := by
  cases i with
  | init =>
    rw [exec_init] at h
    cases h
    rfl
  | get index =>
    cases h
    split <;> rfl
  | set index level =>
    cases h
    refine State.animator_conclude _ fun t ht => ?_
    obtain ⟨_, _, e⟩ | ⟨c, _, e⟩ := s.setChecked_cases .set index (signedLevel level) <;>
      rw [e] at ht <;> cases ht
    exact (s.setLevel_frame c _).animator_eq
  | fade index level ms =>
    cases h
    refine State.animator_conclude _ fun t ht => ?_
    obtain ⟨_, _, e⟩ | ⟨c, _, e⟩ := s.fadeChecked_cases Config.fadeTickHz index level ms <;>
      rw [e] at ht <;> cases ht
    exact (s.startFade_frame c _ _).animator_eq
  | wset ch vel =>
    cases h
    refine State.animator_conclude _ fun t ht => ?_
    split at ht <;> cases ht
    exact s.animator_requestLevel _ _ _
  | wsetall vel =>
    cases h
    split
    · have hstep := s.animator_setAllStep ⟨0, velToLevel vel, s.animator.playing, s.issuer⟩
      split <;> next e => rw [e] at hstep; exact hstep
    · rfl
  | wget ch =>
    cases h
    split <;> rfl
  | wplay id ds fid => exact absurd (.inl ⟨id, ds, fid, rfl⟩) hi
  | wstop => exact absurd (.inr (.inl rfl)) hi
  | wver =>
    cases h
    rfl
  | wboot => exact absurd (.inr (.inr rfl)) hi
  | tick =>
    cases h
    split
    · exact s.tickAll_frame.animator_eq
    · rfl
  | slot =>
    cases h
    exact s.animator_slotStep
  | lookup n =>
    cases h
    rfl

/-! ### The duration of a playing animation (R140, R141) -/

/-- The duration is clamped when an animation is played (R141). -/
theorem clampDuration_mem (x : Rat) :
    Config.minDuration ≤ clampDuration x ∧ clampDuration x ≤ Config.maxDuration := by
  rw [clampDuration_eq]
  exact ⟨le_max_left _ _, max_le Config.minDuration_le_maxDuration (min_le_right _ _)⟩

/-- An animation that plays in `t` played in `s` already, with the same duration. -/
def State.animationKept (s t : State) : Prop :=
  t.animator.playing = true → s.animator.playing = true ∧ t.animator.duration = s.animator.duration

theorem State.animationKept.animatorOk {s t : State} (h : s.animationKept t) (hs : s.animatorOk) : t.animatorOk := by
  intro hplaying
  obtain ⟨hplayed, hduration⟩ := h hplaying
  rw [hduration]
  exact hs hplayed

theorem State.animationKept_of_eq {s t : State} (h : t.animator = s.animator) : s.animationKept t := by
  intro hplaying
  rw [h] at hplaying ⊢
  exact ⟨hplaying, rfl⟩

theorem State.animationKept_of_stopped {s t : State} (h : t.animator.playing = false) : s.animationKept t :=
  fun hplaying => absurd hplaying (by simp [h])

/-- `update` writes the progress, not the duration (R142). -/
theorem State.animationKept_updateNow (dt : Rat) : s.animationKept (s.updateNow dt) := by
  obtain ⟨_, h⟩ | ⟨_, _, h⟩ | ⟨_, _, h⟩ := s.updateNow_cases dt <;> rw [h] <;>
    exact fun hplaying => ⟨hplaying, rfl⟩

theorem State.playing_issueFrame_stopFields (frame : List (Channel × LevelOperand)) :
    (s.stopFields.issueFrame frame).animator.playing = false := by
  rw [(s.stopFields.sameButSets_issueFrame frame).animator_eq]
  rfl

/-- The end of an `update` goes on with the animation, or stops it (R142, R143). -/
theorem State.animationKept_finishUpdate : s.animationKept s.finishUpdate := by
  obtain ⟨_, h⟩ | ⟨_, h⟩ | ⟨_, h⟩ | ⟨_, h⟩ := s.finishUpdate_cases <;> rw [h]
  case inl => exact fun hplaying => ⟨hplaying, rfl⟩
  case inr.inl => exact State.animationKept_of_stopped rfl
  case inr.inr.inl => exact State.animationKept_of_stopped (s.playing_issueFrame_stopFields _)
  case inr.inr.inr => exact State.animationKept_of_stopped rfl

theorem State.animationKept_animAdvance : s.animationKept s.animAdvance := by
  unfold State.animAdvance
  split
  next => exact State.animationKept_of_eq rfl
  next a rest _ =>
    cases a with
    | set c level =>
      exact State.animationKept_of_eq (State.sameButSets_setFromFrame { s with animWork := rest } (c, level)).animator_eq
    | finish => exact State.animationKept_finishUpdate { s with animWork := rest }

/-- An instruction keeps the animation with its duration, stops it, or plays another with a clamped one. -/
theorem exec_animatorOk {i : Instr} {s t : State} (h : exec i s = .next t) (hs : s.animatorOk) : t.animatorOk := by
  by_cases hi : writesAnimator i
  case neg => exact (State.animationKept_of_eq (exec_animator hi h)).animatorOk hs
  obtain ⟨id, ds, fid, rfl⟩ | rfl | rfl := hi <;> cases h
  · obtain ⟨_, e⟩ | ⟨_, _, _, e⟩ | ⟨a, f, _, _, e⟩ := s.playChecked_cases id ds fid <;> rw [e]
    · exact hs
    · exact hs
    · exact fun _ => clampDuration_mem (deciseconds ds)
  · exact (State.animationKept_of_stopped (s.playing_issueFrame_stopFields _)).animatorOk hs
  · exact State.animationKept.animatorOk (State.animationKept_of_stopped rfl) hs

/-- Settles O52, by the move of the step: only `play` writes a duration while it plays, and writes a clamped one. -/
theorem everyStepKeepsTheDurationClamped : Obligations.EveryStepKeepsTheDurationClamped := by
  intro s t hs h
  obtain ⟨u, hqueue, hmove⟩ := step_move h
  have hu : u.animatorOk := by
    unfold State.sameButQueue at hqueue
    rw [hqueue]
    exact hs
  cases hmove with
  | nothing => exact hu
  | heldTick h => exact exec_animatorOk h hu
  | packet k => exact (State.animationKept_of_eq (u.animator_packetAdvance k)).animatorOk hu
  | animator => exact u.animationKept_animAdvance.animatorOk hu
  | word i _ h => exact exec_animatorOk h hu
  | rejected e => cases e <;> exact hu
  | rst => exact State.animationKept.animatorOk (State.animationKept_of_stopped rfl) hu
  | armOk b => exact hu
  | update dt => exact (u.animationKept_updateNow dt).animatorOk hu

end Sys2Proof.Machine
end

section
/-! `update` (45_animator_client.md R142, R143, R145): the step that takes the call, the steps of its frame, the follow
action, and an animation over its whole duration. -/

namespace Sys2Proof.Machine

variable (s : State)

/-! ### The steps of an `update` (R142, R145) -/

/-- The steps that issue a frame of an effect: a SET for each channel, in ascending order (R145). -/
def frameSteps (a : Animation) (p : Rat) : List AnimStep :=
  (List.finRange 24).map fun c => AnimStep.set c (effectLevel a p c)

theorem effectFrame_steps (a : Animation) (p : Rat) :
    (effectFrame a p).map (fun x => AnimStep.set x.1 x.2) = frameSteps a p := by
  simp [effectFrame, frameSteps]

/-- The progress an `update(dt)` comes to, not yet held at 1 (R142). -/
def State.nextProgress (s : State) (dt : Rat) : Rat := s.animator.progress + dt / s.animator.duration

theorem State.updateNow_of_not_playing {s : State} (h : s.animator.playing = false) (dt : Rat) :
    s.updateNow dt = s := by
  simp [State.updateNow, h]

/-- An `update` short of progress 1 advances and queues its frame (R142). -/
theorem State.updateNow_of_lt {s : State} {dt : Rat} (hplaying : s.animator.playing = true)
    (h : s.nextProgress dt < 1) :
    s.updateNow dt = { s with
      animator := { s.animator with progress := s.nextProgress dt }
      animWork := frameSteps s.animator.current (s.nextProgress dt) ++ s.animWork } := by
  obtain ⟨hn, _⟩ | ⟨_, _, e⟩ | ⟨_, hge, _⟩ := s.updateNow_cases dt
  · simp [hplaying] at hn
  · rw [e, State.queueFrame, effectFrame_steps]
    rfl
  · exact absurd h hge.not_gt

/-- An `update` that reaches progress 1 queues the last frame, and the follow action after it (R142). -/
theorem State.updateNow_of_le {s : State} {dt : Rat} (hplaying : s.animator.playing = true)
    (h : 1 ≤ s.nextProgress dt) :
    s.updateNow dt = { s with
      animator := { s.animator with progress := 1 }
      animWork := frameSteps s.animator.current 1 ++ .finish :: s.animWork } := by
  obtain ⟨hn, _⟩ | ⟨_, hlt, _⟩ | ⟨_, _, e⟩ := s.updateNow_cases dt
  · simp [hplaying] at hn
  · exact absurd h hlt.not_ge
  · rw [e, State.queueFrame, effectFrame_steps]

/-- The step that takes a call `update` is that call (R149). -/
theorem step_of_update {s : State} {dt : Rat} {xs : List Input} (hturn : s.nextTurn = some .input)
    (hin : s.inputs = .update dt :: xs) :
    step s = .next ({ s with inputs := xs, turns := s.turns.tail }.updateNow dt) :=
  step_of_input hturn hin

/-- The animator's step takes the first of its work (R145). -/
theorem step_of_animWork {s : State} {a : AnimStep} {rest : List AnimStep} (hturn : s.nextTurn = some .animator)
    (hwork : s.animWork = a :: rest) :
    step s = .next ({ s with turns := s.turns.tail, animWork := rest }.animStep a) := by
  simp [step, State.stepWith, State.runTurn, hturn, State.animAdvance, hwork]

section
variable {s : State}

theorem State.finishUpdate_of_loop (h : s.animator.follow = .loop) :
    s.finishUpdate = { s with animator := { s.animator with progress := 0 } } := by
  simp [State.finishUpdate, h]

theorem State.finishUpdate_of_stopLastFrame (h : s.animator.follow = .stopLastFrame) :
    s.finishUpdate = { s.stopFields with animWork := frameSteps s.animator.current 1 ++ s.animWork } := by
  simp [State.finishUpdate, h, terminalFrame, State.queueFrame, effectFrame_steps]

theorem State.finishUpdate_of_stopOff (h : s.animator.follow = .stopOff) :
    s.finishUpdate = s.stopFields.issueFrame (terminalFrame s.animator.current .stopOff) := by
  simp [State.finishUpdate, h]

theorem State.finishUpdate_of_stopPreviousState (h : s.animator.follow = .stopPreviousState) :
    s.finishUpdate = s.stopFields := by
  simp [State.finishUpdate, h]

end

/-- The call itself, by whether it plays and where it comes to; no work is left from an `update` before it. -/
theorem step_update_cases {s : State} {dt : Rat} {xs : List Input} (hturn : s.nextTurn = some .input)
    (hin : s.inputs = .update dt :: xs) :
    (s.animator.playing = false → step s = .next { s with inputs := xs, turns := s.turns.tail }) ∧
    (s.animator.playing = true → s.nextProgress dt < 1 →
      step s = .next { s with
        inputs := xs, turns := s.turns.tail
        animator := { s.animator with progress := s.nextProgress dt }
        animWork := frameSteps s.animator.current (s.nextProgress dt) }) ∧
    (s.animator.playing = true → 1 ≤ s.nextProgress dt →
      step s = .next { s with
        inputs := xs, turns := s.turns.tail
        animator := { s.animator with progress := 1 }
        animWork := frameSteps s.animator.current 1 ++ [.finish] }) := by
  have hwork := State.animWork_nil_of_mayTake_update (State.mayTake_of_nextTurn hin hturn)
  rw [step_of_update hturn hin]
  let u : State := { s with inputs := xs, turns := s.turns.tail }
  refine ⟨fun hn => ?_, fun hplaying hlt => ?_, fun hplaying hle => ?_⟩
  · rw [State.updateNow_of_not_playing (s := u) hn]
  · rw [State.updateNow_of_lt (s := u) hplaying hlt]
    simp [u, hwork, State.nextProgress]
  · rw [State.updateNow_of_le (s := u) hplaying hle]
    simp [u, hwork]

/-- Settles O46: the step of the call, a step of its frame, and the step of the follow action. -/
theorem updateAdvancesTheAnimation : Obligations.UpdateAdvancesTheAnimation := by
  refine ⟨fun s dt xs => step_update_cases, fun s c level rest => step_of_animWork,
    fun s rest hturn hwork => ?finish⟩
  rw [step_of_animWork hturn hwork]
  let u : State := { s with turns := s.turns.tail, animWork := rest }
  refine ⟨fun h => ?loop, fun h => ?lastFrame, fun h => ?off, fun h => ?previous⟩
  case loop => exact congrArg _ (State.finishUpdate_of_loop (s := u) h)
  case lastFrame => exact congrArg _ (State.finishUpdate_of_stopLastFrame (s := u) h)
  case off =>
    rw [execAll_frame_of_levels]
    exact congrArg _ (State.finishUpdate_of_stopOff (s := u) h)
  case previous => exact congrArg _ (State.finishUpdate_of_stopPreviousState (s := u) h)

/-! ### An `update` and all its SETs, with nothing else in progress -/

/-- Several steps, and then several more. -/
theorem stepTimes_add {m : Nat} (n : Nat) {s t : State} (h : stepTimes m s = .next t) :
    stepTimes (m + n) s = stepTimes n t := by
  induction m generalizing s with
  | zero =>
    cases h
    rw [Nat.zero_add]
  | succ m ih =>
    rw [Nat.succ_add]
    rw [stepTimes] at h ⊢
    split at h
    next hstep => exact ih h
    next => cases h
    next => cases h

/-- No agent but the animator and whoever issues the next arrival has anything to do, and nothing falls inside a
column write. -/
def State.othersIdle (s : State) : Prop :=
  s.turns = [] ∧ s.pendingTicks = 0 ∧ s.packets = [] ∧ s.between = []

theorem State.undisturbed_iff : s.undisturbed ↔ s.othersIdle ∧ s.animWork = [] := by
  unfold State.undisturbed State.othersIdle
  tauto

theorem State.sameButSets.othersIdle {s t : State} (h : s.sameButSets t) (hs : s.othersIdle) : t.othersIdle := by
  obtain ⟨hturns, hticks, hpackets, hbetween⟩ := hs
  have hengine := h.2 hbetween
  unfold State.sameButEngine at hengine
  rw [hengine]
  exact ⟨hturns, hticks, hpackets, hbetween⟩

/-- `t` is where the animation of `s` stands at progress `p`, with the work `ws` and the arrivals `xs` left and no other
agent with anything to do. -/
def State.comesTo (s t : State) (p : Rat) (ws : List AnimStep) (xs : List Input) : Prop :=
  t.othersIdle ∧ t.inited = s.inited ∧ t.animator = { s.animator with progress := p } ∧ t.animWork = ws ∧
    t.inputs = xs

section
variable {s u : State} {p : Rat} {ws : List AnimStep} {xs : List Input}

theorem State.comesTo.nextTurn {a : AnimStep} (h : s.comesTo u p (a :: ws) xs) : u.nextTurn = some .animator := by
  obtain ⟨⟨hturns, hticks, hpackets, _⟩, _, _, hwork, _⟩ := h
  exact State.nextTurn_of_animWork hturns hticks hpackets hwork

/-- A step that issues a SET of a frame leaves the rest of the work to do. -/
theorem State.comesTo.step_set {x : Channel × LevelOperand} (h : s.comesTo u p (.set x.1 x.2 :: ws) xs) :
    ∃ t, step u = .next t ∧ s.comesTo t p ws xs := by
  have hturn := h.nextTurn
  obtain ⟨⟨hturns, hothers⟩, hinited, hanimator, hwork, hinputs⟩ := h
  have hsets := State.sameButSets_setFromFrame { u with turns := u.turns.tail, animWork := ws } x
  refine ⟨_, step_of_animWork hturn hwork, hsets.othersIdle ⟨by simp [hturns], hothers⟩,
    hsets.inited_eq.trans hinited, hsets.animator_eq.trans hanimator, hsets.animWork_eq, hsets.inputs_eq.trans hinputs⟩

/-- The steps that issue a frame, one for each of its SETs. -/
theorem State.comesTo.stepTimes_frame (frame : List (Channel × LevelOperand))
    (h : s.comesTo u p (frame.map (fun x => AnimStep.set x.1 x.2) ++ ws) xs) :
    ∃ t, stepTimes frame.length u = .next t ∧ s.comesTo t p ws xs := by
  induction frame generalizing u with
  | nil => exact ⟨u, rfl, h⟩
  | cons x frame ih =>
    obtain ⟨v, hstep, hv⟩ := h.step_set
    obtain ⟨t, hsteps, ht⟩ := ih hv
    exact ⟨t, (stepTimes_succ _ hstep).trans hsteps, ht⟩

/-- The 24 steps of an effect's frame. -/
theorem State.comesTo.stepTimes_effect {q : Rat} (h : s.comesTo u p (frameSteps s.animator.current q ++ ws) xs) :
    ∃ t, stepTimes 24 u = .next t ∧ s.comesTo t p ws xs := by
  rw [← effectFrame_steps] at h
  simpa [effectFrame] using h.stepTimes_frame

end

section
variable {s : State} {dt : Rat} {xs : List Input} (hs : s.undisturbed) (hplaying : s.animator.playing = true)
  (hin : s.inputs = .update dt :: xs)
include hs hplaying hin

/-- An `update` short of progress 1, with its frame: 25 steps. -/
theorem stepTimes_update_of_lt (h : s.nextProgress dt < 1) :
    ∃ t, stepTimes 25 s = .next t ∧ s.comesTo t (s.nextProgress dt) [] xs := by
  obtain ⟨-, hcall, -⟩ := step_update_cases (State.nextTurn_of_undisturbed hs hin) hin
  obtain ⟨⟨hturns, hothers⟩, -⟩ := s.undisturbed_iff.mp hs
  rw [stepTimes_succ 24 (hcall hplaying h)]
  exact State.comesTo.stepTimes_effect
    ⟨⟨by simp [hturns], hothers⟩, rfl, rfl, (List.append_nil _).symm, rfl⟩

/-- An `update` that reaches progress 1, with its frame: 25 steps, the follow action still to come. -/
theorem stepTimes_update_of_le (h : 1 ≤ s.nextProgress dt) :
    ∃ t, stepTimes 25 s = .next t ∧ s.comesTo t 1 [.finish] xs := by
  obtain ⟨-, -, hcall⟩ := step_update_cases (State.nextTurn_of_undisturbed hs hin) hin
  obtain ⟨⟨hturns, hothers⟩, -⟩ := s.undisturbed_iff.mp hs
  rw [stepTimes_succ 24 (hcall hplaying h)]
  exact State.comesTo.stepTimes_effect ⟨⟨by simp [hturns], hothers⟩, rfl, rfl, rfl, rfl⟩

end

/-! ### An animation over its whole duration (R142, R143, R152) -/

theorem State.comesTo.trans {s t u : State} {p q : Rat} {ws vs : List AnimStep} {xs ys : List Input}
    (h : s.comesTo t p ws xs) (k : t.comesTo u q vs ys) : s.comesTo u q vs ys := by
  obtain ⟨_, hinited, hanimator, _⟩ := h
  obtain ⟨kidle, kinited, kanimator, krest⟩ := k
  rw [hanimator] at kanimator
  exact ⟨kidle, kinited.trans hinited, kanimator, krest⟩

/-- Calls at equal intervals that stay short of progress 1 advance it by equal parts, 25 steps each. -/
theorem stepTimes_updates (n : Nat) {s : State} {dt : Rat} {xs : List Input} (hs : s.undisturbed)
    (hplaying : s.animator.playing = true) (hin : s.inputs = List.replicate n (.update dt) ++ xs)
    (hdt : 0 ≤ dt / s.animator.duration)
    (hshort : s.animator.progress + n * (dt / s.animator.duration) < 1) :
    ∃ t, stepTimes (n * 25) s = .next t ∧
      s.comesTo t (s.animator.progress + n * (dt / s.animator.duration)) [] xs := by
  induction n generalizing s with
  | zero =>
    obtain ⟨hidle, hwork⟩ := s.undisturbed_iff.mp hs
    exact ⟨s, rfl, hidle, rfl, by simp, hwork, hin⟩
  | succ n ih =>
    have hfuture : 0 ≤ n * (dt / s.animator.duration) := mul_nonneg n.cast_nonneg hdt
    have hsplit : s.animator.progress + (n + 1 : Nat) * (dt / s.animator.duration) =
        s.nextProgress dt + n * (dt / s.animator.duration) := by
      rw [State.nextProgress]
      push_cast
      ring
    rw [hsplit] at hshort ⊢
    obtain ⟨u, hcall, hu⟩ := stepTimes_update_of_lt hs hplaying hin (by linarith)
    have ⟨hidle, _, hanimator, hwork, hinputs⟩ := hu
    obtain ⟨t, hcalls, ht⟩ := ih (s := u) (u.undisturbed_iff.mpr ⟨hidle, hwork⟩)
      (by rw [hanimator]; exact hplaying) hinputs (by rw [hanimator]; exact hdt) (by rw [hanimator]; exact hshort)
    rw [hanimator] at ht
    refine ⟨t, ?_, hu.trans ht⟩
    rw [Nat.succ_mul, Nat.add_comm, stepTimes_add _ hcall, hcalls]

/-- The 250 calls of a 5 second animation, with their frames: the last one finishes, the follow action is still to come
(R152, S6). -/
theorem stepTimes_wholeDuration {s : State} (hs : s.undisturbed) (hplaying : s.animator.playing = true)
    (hprogress : s.animator.progress = 0) (hduration : s.animator.duration = 5)
    (hin : s.inputs = List.replicate 250 (.update (1 / 50))) :
    ∃ t, stepTimes (250 * 25) s = .next t ∧ s.comesTo t 1 [.finish] [] := by
  obtain ⟨u, hcalls, hu⟩ := stepTimes_updates 249 (xs := [.update (1 / 50)]) hs hplaying
    (hin.trans List.replicate_succ')
    (by rw [hduration]; norm_num) (by rw [hprogress, hduration]; norm_num)
  have ⟨hidle, _, hanimator, hwork, hinputs⟩ := hu
  have hlast : 1 ≤ u.nextProgress (1 / 50) := by
    rw [State.nextProgress, hanimator, hprogress, hduration]
    norm_num
  obtain ⟨t, hcall, ht⟩ := stepTimes_update_of_le (u.undisturbed_iff.mpr ⟨hidle, hwork⟩)
    (by rw [hanimator]; exact hplaying) hinputs hlast
  exact ⟨t, (stepTimes_add 25 hcalls).trans hcall, hu.trans ht⟩

/-- The step after the last frame resolves the follow action. -/
theorem State.comesTo.stepTimes_finish {n : Nat} {s t : State} {p : Rat} {xs : List Input}
    (hsteps : stepTimes n s = .next t) (h : s.comesTo t p [.finish] xs) :
    stepTimes (n + 1) s = .next ({ t with turns := t.turns.tail, animWork := [] }.finishUpdate) := by
  have hturn := h.nextTurn
  obtain ⟨-, -, -, hwork, -⟩ := h
  rw [stepTimes_add 1 hsteps, stepTimes_succ 0 (step_of_animWork hturn hwork)]
  rfl

/-- Settles O47: the 250 calls, and then Loop's step back to progress 0. -/
theorem loopStartsAgainAfterItsDuration : Obligations.LoopStartsAgainAfterItsDuration := by
  intro s hs hplaying hfollow hprogress hduration hin
  obtain ⟨u, hcalls, hu⟩ := stepTimes_wholeDuration hs hplaying hprogress hduration hin
  have hfinish := hu.stepTimes_finish hcalls
  obtain ⟨-, -, hanimator, -, hinputs⟩ := hu
  rw [State.finishUpdate_of_loop (by rw [hanimator]; exact hfollow)] at hfinish
  refine ⟨_, hfinish, ?_, hinputs, rfl⟩
  rw [hanimator, ← hprogress]

/-- Settles O48: the 250 calls, and then StopOff's step, whose frame leaves every channel dark. -/
theorem stopOffEndsDarkAfterItsDuration : Obligations.StopOffEndsDarkAfterItsDuration := by
  intro s hi hs hplaying hfollow hprogress hduration hin
  obtain ⟨u, hcalls, hu⟩ := stepTimes_wholeDuration hs hplaying hprogress hduration hin
  have hfinish := hu.stepTimes_finish hcalls
  obtain ⟨-, hinited, hanimator, -, hinputs⟩ := hu
  let v : State := { u with turns := u.turns.tail, animWork := [] }
  rw [State.finishUpdate_of_stopOff (s := v) (by rw [hanimator]; exact hfollow)] at hfinish
  have hsets := v.stopFields.sameButSets_issueFrame (terminalFrame v.animator.current .stopOff)
  refine ⟨_, hfinish, ?_, State.dark_stopOffFrame (s := v.stopFields) (hinited.trans hi) _,
    hsets.inputs_eq.trans hinputs, hsets.animWork_eq⟩
  rw [hsets.animator_eq, State.stopFields_animator, hanimator]

end Sys2Proof.Machine
end

section
/-! The exceptions (60_exceptions.md): every failure is a status with a code of its own, and no step of any agent ends the
run. -/

namespace Sys2Proof.Machine

/-! ### The statuses (R160) -/

/-- Code 7 is no status. -/
theorem Status.code_ne_seven (st : Status) : st.code ≠ 7#3 := by
  cases st <;> decide

/-- Settles O56: each code by the equation of its status, and 7 by going through the statuses. -/
theorem statusCodes : Obligations.StatusCodes :=
  ⟨rfl, rfl, rfl, rfl, rfl, rfl, rfl, Status.code_ne_seven, fun _ _ => ⟨rfl, rfl, rfl, rfl, rfl, rfl⟩⟩

/-! ### No fatal conditions (R166 (b)) -/

/-- Every instruction has a meaning in every state: the arm of each constructor answers a next state, a failure being a
status in it. -/
theorem exec_exists_next (i : Instr) (s : State) : ∃ t, exec i s = .next t := by
  cases i <;> exact ⟨_, rfl⟩

/-- Every arrival is taken: a word that decodes is run, one with a reserved opcode is rejected, and the pins and the
application task's call go to the block and the animator. -/
theorem State.accept_exists_next (s : State) (x : Input) : ∃ t, s.accept exec x = .next t := by
  cases x with
  | word client p =>
    cases hdecode : decode p with
    | ok i =>
      rw [State.accept_word s hdecode client]
      exact exec_exists_next i _
    | reject e => exact ⟨{ s with issuer := client }.rejectWord e, by simp [State.accept, hdecode]⟩
  | rst => exact ⟨s.hardwareReset, rfl⟩
  | armOk b => exact ⟨{ s with armOk := b }, rfl⟩
  | update dt => exact ⟨s.updateNow dt, rfl⟩

/-- Whichever agent has the turn, it moves to a next state; with nobody to move the state stands. -/
theorem State.runTurn_exists_next (s : State) (turn : Option Turn) : ∃ t, s.runTurn exec turn = .next t :=
  match turn with
  | none => ⟨s, rfl⟩
  | some .heldTick => exec_exists_next .tick _
  | some (.packet k) => ⟨s.packetAdvance k, rfl⟩
  | some .animator => ⟨s.animAdvance, rfl⟩
  | some .input => by
    cases hin : s.inputs with
    | nil => exact ⟨s, by simp [State.runTurn, hin]⟩
    | cons x xs =>
      obtain ⟨t, haccept⟩ := State.accept_exists_next { s with inputs := xs } x
      exact ⟨t, by simpa [State.runTurn, hin] using haccept⟩

/-- Settles O8: a step is the turn of the agent chosen, whoever that is. -/
theorem everyStepHasANextState : Obligations.EveryStepHasANextState := fun s =>
  State.runTurn_exists_next { s with turns := s.turns.tail } s.nextTurn

end Sys2Proof.Machine
end

section
/-! The hazards and the reset (70_reset_and_hazards.md): a fade cancelled as soon as it is begun, the quiescent states,
and the reset input beside packet 0xF1. -/

namespace Sys2Proof.Machine

variable (s : State)

/-! ### A SET right after a FADE (R189) -/

section
variable (c : Channel) (target : Level) (d : BitVec 32) (level : Int)

/-- What FADE and then SET, each with its status, leave of the record: the endpoints and the duration of the
fade, all its ticks counted, at the level of the SET. -/
theorem State.diode_setLevel_startFade :
    ((((s.startFade c target d).succeed .fade).setLevel c level).succeed .set).diode c =
      ⟨clampLevel level, (s.diode c).cur, target, d, d⟩ := by
  rw [State.diode_succeed, State.diode_setLevel, if_pos rfl, State.diode_succeed, State.diode_startFade, if_pos rfl]

theorem State.channelKept_setLevel_startFade {c c' : Channel} (h : c' ≠ c) :
    s.channelKept ((((s.startFade c target d).succeed .fade).setLevel c level).succeed .set) c' := by
  obtain ⟨hdiode, hcolumn⟩ := s.channelKept_startFade h target d
  obtain ⟨hdiode', hcolumn'⟩ := ((s.startFade c target d).succeed .fade).channelKept_setLevel h level
  exact ⟨hdiode'.trans hdiode, fun j => (hcolumn' j).trans (hcolumn j)⟩

end

theorem execAll_fade_set {index : Byte} {c : Channel} {s : State} (target level : LevelOperand) (ms : BitVec 16)
    (hi : s.inited = true) (hc : index.toNat = c.val) :
    execAll [.fade index target ms, .set index level] s =
      .next ((((s.startFade c (clampLevel target.toInt) (fadeTicks Config.fadeTickHz ms)).succeed .fade).setLevel c
        level.toInt).succeed .set) :=
  have hframe := s.startFade_frame c (clampLevel target.toInt) (fadeTicks Config.fadeTickHz ms)
  (execAll_cons (exec_fade target ms hi hc)).trans (execAll_cons (exec_set level (hframe.inited_eq.trans hi) hc))

/-- Settles O19: FADE writes the endpoints, with or without its target applied at once, and SET keeps them. -/
theorem setAfterFadeCancelsIt : Obligations.SetAfterFadeCancelsIt := by
  intro index target level ms s c hi hc
  exact ⟨_, clampLevel target.toInt, clampLevel level.toInt, fadeTicks Config.fadeTickHz ms, clampLevel_toNat _,
    clampLevel_toNat _, fadeTicks_toNat Config.fadeTickHz_le ms, execAll_fade_set target level ms hi hc,
    s.diode_setLevel_startFade c _ _ _, fun _ h => (s.channelKept_setLevel_startFade _ _ _ h).1,
    fun _ h => (s.channelKept_setLevel_startFade _ _ _ h).2⟩

/-! ### TICK where every diode is idle (R100, R183) -/

section
variable {s}

theorem State.tickLane_of_idle {c : Channel} (h : (s.diode c).idle = true) : s.tickLane c = s :=
  if_pos h

theorem State.tickAll_of_idle (h : ∀ c : Channel, (s.diode c).idle = true) : s.tickAll = s :=
  List.foldl_fixed' (fun c => State.tickLane_of_idle (h c)) _

/-- Armed or not, the timer has no lane to move. -/
theorem exec_tick_of_idle (h : ∀ c : Channel, (s.diode c).idle = true) : exec .tick s = .next s := by
  cases htimer : s.tickArmed with
  | false => exact exec_tick_of_unarmed htimer
  | true => rw [exec_tick htimer, State.tickAll_of_idle h]

theorem State.quiescent.idle (h : s.quiescent) : ∀ c : Channel, (s.diode c).idle = true := by
  obtain ⟨_, _, _, hidle⟩ := h
  exact hidle

end

/-- Settles O22: TICK skips every lane. -/
theorem tickChangesNothingWhenQuiescent : Obligations.TickChangesNothingWhenQuiescent :=
  ⟨fun _ h => exec_tick_of_idle fun c => Diode.idle_iff.mpr (h c), fun _ h => exec_tick_of_idle h.idle⟩

/-! ### The output of a quiescent state (R111, R183) -/

/-- SLOT leaves idle diodes idle, so that among SLOTs the ticks never count. -/
theorem execAll_ticks_and_slots {events : List Instr} (hevents : ∀ i ∈ events, i = .tick ∨ i = .slot) {s : State}
    (hidle : ∀ c : Channel, (s.diode c).idle = true) :
    execAll events s = .next (s.afterSlots (events.count .slot)) := by
  induction events generalizing s with
  | nil => rfl
  | cons i events ih =>
    rw [List.forall_mem_cons] at hevents
    obtain ⟨hi, hrest⟩ := hevents
    obtain rfl | rfl := hi
    case inl => rw [execAll_cons (exec_tick_of_idle hidle), ih hrest hidle, List.count_cons_of_ne (by decide)]
    case inr =>
      have hidle' (c : Channel) : (s.slotStep.diode c).idle = true := by
        rw [(s.channelKept_slotStep c).1, hidle c]
      rw [execAll_cons (exec_slot s), ih hrest hidle', List.count_cons_self]
      rfl

/-- SLOTs alone write the output driver's fields only: no tick is held and no gap is used up. -/
theorem State.afterSlots_frame (n : Nat) :
    s.afterSlots n =
      { s with
        slot := (s.afterSlots n).slot, q := (s.afterSlots n).q, chain := (s.afterSlots n).chain
        line := (s.afterSlots n).line, frames := (s.afterSlots n).frames } := by
  have hticks : (s.afterSlots n).pendingTicks = s.pendingTicks := by
    rw [State.afterSlots, State.strobes_pendingTicks, List.count_replicate]
    rfl
  have hpulses := s.afterSlots_sameButPulses n
  unfold State.sameButPulses at hpulses
  rwa [hticks, s.afterSlots_between n] at hpulses

/-- Settles O59: the run is that of its SLOTs alone, over a buffer that stands. -/
theorem quiescentOutputRepeats : Obligations.QuiescentOutputRepeats := by
  intro s events hquiescent harmed hevents
  obtain ⟨new, hpresents, hcount, hmask⟩ := State.afterSlots_presents harmed (events.count .slot)
  refine ⟨_, new, execAll_ticks_and_slots hevents hquiescent.idle, ?frame, ?slot, hcount,
    fun n f hn => ⟨hpresents.order n f hn, hmask f (List.mem_of_getElem? hn)⟩⟩
  case frame =>
    rw [← hpresents.frames]
    exact s.afterSlots_frame _
  case slot => rw [hpresents.slot, hcount]

/-! ### The reset input (R180) -/

/-- The step that takes `rst` is the hardware reset, the arrival and the turn used up. -/
theorem step_of_rst {s : State} {xs : List Input} (hturn : s.nextTurn = some .input) (hin : s.inputs = .rst :: xs) :
    step s = .next { s with inputs := xs, turns := s.turns.tail }.hardwareReset :=
  step_of_input hturn hin

/-- WBOOT is the hardware reset with a status (R134). -/
theorem exec_wboot : exec .wboot s = .next (s.hardwareReset.succeed .wboot) := rfl

/-- Settles O40: both are the hardware reset of the same state. -/
theorem resetPinActsAsWboot : Obligations.ResetPinActsAsWboot := fun _ _ hturn hin =>
  ⟨_, _, step_of_rst hturn hin, exec_wboot _, rfl, rfl, rfl, rfl, rfl⟩

end Sys2Proof.Machine
end
